-- ==== Sys2Proof/Word.lean ====
section
/-!
DEFINITION. The three word types of the core (R5, R81): the byte of the data bus and of the 8-bit registers, the 16-bit
address and program counter, the 32-bit pin word. All arithmetic on them wraps (R9: u8 and u16 are BitVec addition).
-/

namespace Sys2Proof

/-- An 8-bit value: A, X, Y, S, a data byte (R5). -/
abbrev Byte := BitVec 8

/-- A 16-bit value: PC, an address (R5). -/
abbrev Word := BitVec 16

/-- The pin word of one clock cycle (R81). -/
abbrev PinWord := BitVec 32

end Sys2Proof
end

