-- ==== Sys2Proof/Machine/Bits.lean ====
section
/-!
DEFINITION. The notation of R8 as functions: concatenation, byte fields of a word, extension.
-/

namespace Sys2Proof

/-- The 16-bit value with high byte `h` and low byte `l` (R8, written h then l in braces there). -/
def pair (h l : Byte) : Word := h ++ l

/-- Bits 7:0 of a word (R8), PCL of PC (R30). -/
def lo (w : Word) : Byte := w.extractLsb' 0 8

/-- Bits 15:8 of a word (R8): its page number, PCH of PC (R30). -/
def hi (w : Word) : Byte := w.extractLsb' 8 8

/-- zext_16 (R8). -/
def zext (b : Byte) : Word := b.setWidth 16

/-- sext_8 as a 16-bit addend (R8, R193). -/
def sext (b : Byte) : Word := b.signExtend 16

end Sys2Proof
end

