-- ==== Sys2Proof/Config.lean ====
section
/-!
DEFINITION. The parameters of R5 as one record with the values of this hardware, and the free values: the byte a hook handler
answers (HOOK_READ, U2) and the snapshot where R59 leaves it unspecified (U3). A free value has no body, so nothing can be
proved of it.
-/

namespace Sys2Proof

/-- A mirror region (R102): every address from `low` to `high` resolves to `base + (a - low) mod size`. -/
structure MirrorRegion where
  low : Word
  high : Word
  base : Word
  size : Nat
deriving DecidableEq, Repr

/-- The parameters of R5 that a model takes as arguments. -/
structure Config where
  /-- DECIMAL_MODE (D6). -/
  decimalMode : Bool
  /-- ANE_MAGIC (D7). -/
  aneMagic : Byte
  /-- LXA_MAGIC (D7). -/
  lxaMagic : Byte
  /-- RESET_CYCLES, 6 or 7 (D13). -/
  resetCycles : Nat
  /-- MEMORY_MAP_CONFIG (D16). -/
  mirrors : List MirrorRegion
deriving DecidableEq, Repr

/-- The values of R5 for this hardware, the 2A03 variant; the one mirror region is R104's. -/
def Config.standard : Config where
  decimalMode := false
  aneMagic := 0xEE
  lxaMagic := 0xEE
  resetCycles := 6
  mirrors := [{ low := 0x0000, high := 0x1FFF, base := 0x0000, size := 0x0800 }]

/-- One call of a hook handler: `(address, is_read, data)` (R107), and which handler. -/
structure HookCall where
  handler : Nat
  addr : Word
  isRead : Bool
  data : Byte
deriving DecidableEq, Repr

/-- HOOK_READ (R5, R105, U2): the byte the handler of the newest call answers. A free value: a function of every call made so
far (newest first) and of the number of bus cycles so far, with no body. Assumption log entry 4. -/
opaque Config.hookRead : List HookCall → Nat → Byte

/-- What the snapshot accessor returns: `(A, X, Y, S, PC, P)` (R59). -/
structure Snapshot where
  a : Byte
  x : Byte
  y : Byte
  s : Byte
  pc : Word
  p : Byte
deriving DecidableEq, Repr, Inhabited

/-- The snapshot's values at a tick where R59 leaves them unspecified (U3): a free value, applied to the number of bus cycles so
far. Assumption log entry 9. -/
opaque Config.snapshotOpen : Nat → Snapshot

end Sys2Proof
end

