-- ==== Sys2Proof/Machine/State.lean ====
section
/-!
DEFINITION. The state of the core and of its memory map as plain data (10_state.md, 20_memory.md), the reasons a step can stop
(none: R11, R400), the state at power-on and the state after the power-on reset sequence.
-/

namespace Sys2Proof.Machine

/-- The six stored fields of P (R36). Bits 4 and 5 have no storage (R37, R38). -/
structure Status where
  c : Bool
  z : Bool
  i : Bool
  d : Bool
  v : Bool
  n : Bool
deriving DecidableEq, Repr

/-- The register file (R30). -/
structure Regs where
  a : Byte
  x : Byte
  y : Byte
  s : Byte
  pc : Word
  p : Status
deriving DecidableEq, Repr

/-- The latches of the Execution Engine (R45). `res` is the result byte of a read-modify-write between its two writes (R171):
entry 11. -/
structure Latches where
  ir : Byte
  adl : Byte
  adh : Byte
  ea : Word
  bah : Byte
  crossed : Bool
  dl : Byte
  res : Byte
deriving DecidableEq, Repr

/-- Which sequence runs (R45): INSTR, IRQ_SEQ, NMI_SEQ, RESET_SEQ, JAMMED. -/
inductive Seq where
  | instr
  | irq
  | nmi
  | reset
  | jammed
deriving DecidableEq, Repr

/-- The Interrupt Controller's latches (R50), and the RDY level of the last input, which the output pin word copies (R88). -/
structure Controller where
  nmiPrev : Bool
  nmiPending : Bool
  resPrev : Bool
  resPending : Bool
  irqLine : Bool
  inhibit : Bool
  rdyLine : Bool
deriving DecidableEq, Repr

/-- The levels of the input lines for one tick (R81, R87): true is asserted; `rdy` asserted asks the core to wait. -/
structure Lines where
  irq : Bool
  nmi : Bool
  rdy : Bool
  res : Bool
deriving DecidableEq, Repr

/-- One bus cycle as it stands in the output pin word (R45 last_bus, R88): `read` is the RW line. -/
structure BusCycle where
  addr : Word
  read : Bool
  data : Byte
  sync : Bool
deriving DecidableEq, Repr

/-- A registered hook: the inclusive address range and which handler (R106). -/
structure HookRange where
  low : Word
  high : Word
  handler : Nat
deriving DecidableEq, Repr

/-- The backing array (R100) as the list of its bytes that are not 0x00 (R108), addresses strictly rising. -/
abbrev Memory := List Host.Cell

/-- The whole machine. -/
structure State where
  /-- The register file (R30). -/
  regs : Regs
  /-- The engine's latches (R45). -/
  latch : Latches
  /-- Which sequence runs (R45); `jammed` is the jammed state (R56). -/
  seq : Seq
  /-- The cycle index (R45) of the outstanding bus cycle; 0 between sequences (R60, entry 10). -/
  t : Nat
  /-- The Interrupt Controller (R50). -/
  ctl : Controller
  /-- last_bus (R45, R57); none before the first tick (R94). -/
  lastBus : Option BusCycle
  /-- The D field of the input of the coming tick (R88, R97). -/
  dbus : Byte
  /-- The backing array of the memory map (R100). -/
  mem : Memory
  /-- The registered hooks (R106). -/
  hooks : List HookRange
  /-- The calls delivered to hook handlers, newest first (R105, R107; the model's own record, entry 19). -/
  hookCalls : List HookCall
  /-- The parameters (R5), fixed before the first tick. -/
  cfg : Config
  /-- The line levels of the coming ticks (R90), next one first; past its end all lines are 0 (entry 3). -/
  inputs : List Lines
  /-- Every bus cycle emitted so far, newest first (the model's own record, entry 19). -/
  trace : List BusCycle
deriving DecidableEq, Repr

/-- Why a step can stop with a fault: for no reason. The core has no synchronous exception, and no instruction, operand, address
or opcode stops it (R11, R400); JAM is a state (R56), not a fault. Nobody raises a fault; that is safe. -/
inductive Fault where
deriving DecidableEq, Repr

/-- Why a step can be refused. -/
inductive Refusal where
  /-- An instruction with no meaning in exec yet, by its mnemonic. Raised by no arm: every opcode has its meaning. Safe. -/
  | notModelled (mnemonic : String)
deriving DecidableEq, Repr

/-- The answer of a meaning. -/
abbrev Result := Host.Outcome State Fault Refusal

/-- No interrupt, no reset, no wait (R87). -/
def Lines.idle : Lines where
  irq := false
  nmi := false
  rdy := false
  res := false

/-- Power-on, before the first tick (R60, first column; R94), with the embedder's parameters (R460). Latches the spec gives no
value: entry 6. -/
def State.powerOnWith (cfg : Config) : State where
  regs := { a := 0, x := 0, y := 0, s := 0, pc := 0,
            p := { c := false, z := false, i := true, d := false, v := false, n := false } }
  latch := { ir := 0, adl := 0, adh := 0, ea := 0, bah := 0, crossed := false, dl := 0, res := 0 }
  seq := .instr
  t := 0
  ctl := { nmiPrev := false, nmiPending := false, resPrev := false, resPending := true, irqLine := false,
           inhibit := false, rdyLine := false }
  lastBus := none
  dbus := 0
  mem := []
  hooks := []
  hookCalls := []
  cfg := cfg
  inputs := []
  trace := []

/-- Power-on of this hardware (R5, R60). -/
def State.powerOn : State := State.powerOnWith Config.standard

/-- The machine right after reset: the power-on state as the reset sequence changed it (R452, R60 second column), with nothing in
memory, so that the reset vector reads 0x0000. The first step from it fetches the instruction at PC (R407). Entry 2. -/
def State.reset : State where
  regs := { a := 0, x := 0, y := 0, s := 0xFD, pc := 0,
            p := { c := false, z := false, i := true, d := false, v := false, n := false } }
  latch := { ir := 0, adl := 0, adh := 0, ea := 0, bah := 0, crossed := false, dl := 0, res := 0 }
  seq := .instr
  t := 0
  ctl := { nmiPrev := false, nmiPending := false, resPrev := false, resPending := false, irqLine := false,
           inhibit := true, rdyLine := false }
  lastBus := some { addr := 0xFFFD, read := true, data := 0, sync := false }
  dbus := 0
  mem := []
  hooks := []
  hookCalls := []
  cfg := Config.standard
  inputs := []
  trace := [{ addr := 0xFFFD, read := true, data := 0, sync := false },
            { addr := 0xFFFC, read := true, data := 0, sync := false },
            { addr := 0x01FE, read := true, data := 0, sync := false },
            { addr := 0x01FF, read := true, data := 0, sync := false },
            { addr := 0x0100, read := true, data := 0, sync := false },
            { addr := 0x0000, read := true, data := 0, sync := false }]

end Sys2Proof.Machine
end

