-- ==== Sys2Proof/Machine/Ops.lean ====
section
/-!
DEFINITION. The shared operations: the backing array, the memory map router (R100 to R107), sampling the input lines (R402, R403,
R406), one bus cycle (R10, R91, R93), the rows of a cycle table (R13), the stack (R34), the status byte (R39), taking an interrupt
or BRK (R305, R411), the return from it (R304), the reset sequence (R450) and the boundary decision (R405).
-/

namespace Sys2Proof.Machine

/-! ### The backing array (R100, R108) -/

/-- The byte at index `i` of the backing array; a byte that is not listed is 0x00 (R108). -/
def Memory.get : Memory → Nat → Byte
  | [], _ => 0
  | (j, w) :: m, i => if i = j then w else Memory.get m i

/-- Store `v` at index `i`, keeping the canonical form: addresses rising, no 0x00 listed. -/
def Memory.set : Memory → Nat → Byte → Memory
  | [], i, v => if v = 0 then [] else [(i, v)]
  | (j, w) :: m, i, v =>
    if i < j then (if v = 0 then (j, w) :: m else (i, v) :: (j, w) :: m)
    else if i = j then (if v = 0 then m else (i, v) :: m)
    else (j, w) :: Memory.set m i v

/-- `m` lists addresses from `low` up to 0xFFFF in strictly rising order, and no byte 0x00. -/
def Memory.wfFrom : Nat → Memory → Bool
  | _, [] => true
  | low, (j, w) :: m => decide (low ≤ j) && decide (j < 65536) && (w != 0) && Memory.wfFrom (j + 1) m

/-- The canonical form of the backing array: equal contents are equal lists. -/
def Memory.wf (m : Memory) : Bool := Memory.wfFrom 0 m

/-! ### The memory map router (R101 to R106) -/

/-- `a` lies in the inclusive range of the mirror region (R102). -/
def MirrorRegion.covers (m : MirrorRegion) (a : Word) : Bool := decide (m.low ≤ a) && decide (a ≤ m.high)

/-- Mirror-resolve, else direct (R101, R102). The sum is taken as a 16-bit index (entry 15). -/
def mirrorIndex (mirrors : List MirrorRegion) (a : Word) : Word :=
  match mirrors.find? (fun m => MirrorRegion.covers m a) with
  | some m => BitVec.ofNat 16 (m.base.toNat + (a.toNat - m.low.toNat) % m.size)
  | none => a

/-- `a` lies in the inclusive range of the hook (R106). -/
def HookRange.covers (h : HookRange) (a : Word) : Bool := decide (h.low ≤ a) && decide (a ≤ h.high)

/-- The two ranges share an address. -/
def HookRange.overlaps (h k : HookRange) : Bool := decide (h.low ≤ k.high) && decide (k.low ≤ h.high)

/-- What an address resolves to (R101). -/
inductive Target where
  | hook (h : HookRange)
  | array (index : Word)
deriving DecidableEq, Repr

/-- The hook that covers `a`, if one does (R101). -/
def State.hookAt (s : State) (a : Word) : Option HookRange := s.hooks.find? (fun h => HookRange.covers h a)

/-- R101: hook check, then mirror, then direct. -/
def State.resolve (s : State) (a : Word) : Target :=
  match s.hookAt a with
  | some h => .hook h
  | none => .array (mirrorIndex s.cfg.mirrors a)

/-- The array byte behind `a`, hooks not asked: what the memory map's array holds for that address. -/
def State.peek (s : State) (a : Word) : Byte := Memory.get s.mem (mirrorIndex s.cfg.mirrors a).toNat

/-- Store into the array byte behind `a`, hooks not asked (R115). -/
def State.poke (s : State) (a : Word) (v : Byte) : State :=
  { s with mem := Memory.set s.mem (mirrorIndex s.cfg.mirrors a).toNat v }

/-- `read(a)` of R101: the answer becomes the D field of the next input (R97). A hooked address delivers
`(a, true, D)` to its handler, whose answer is a free value (R105, R107, entry 4); the array is not read. -/
def State.accessRead (a : Word) (s : State) : State :=
  match s.resolve a with
  | .hook h =>
    let calls := { handler := h.handler, addr := a, isRead := true, data := s.dbus } :: s.hookCalls
    { s with hookCalls := calls, dbus := Config.hookRead calls s.trace.length }
  | .array i => { s with dbus := Memory.get s.mem i.toNat }

/-- `write(a, v)` of R101: a hooked address delivers `(a, false, v)` to its handler and leaves the array alone (R105). The D field
of the next input stays the written byte (R97). -/
def State.accessWrite (a : Word) (v : Byte) (s : State) : State :=
  match s.resolve a with
  | .hook h =>
    { s with hookCalls := { handler := h.handler, addr := a, isRead := false, data := v } :: s.hookCalls, dbus := v }
  | .array i => { s with mem := Memory.set s.mem i.toNat v, dbus := v }

/-! ### Bus cycles and ticks (R10, R91, R93) -/

/-- The core puts a bus cycle on the pins: last_bus (R57), and the model's record of it. -/
def State.drive (c : BusCycle) (s : State) : State := { s with lastBus := some c, trace := c :: s.trace }

/-- Step (1) of a tick (R91): NMI edge (R402), RES edge (R403), IRQ level (R406). -/
def State.sample (l : Lines) (s : State) : State :=
  { s with ctl := { s.ctl with
      nmiPending := s.ctl.nmiPending || (l.nmi && !s.ctl.nmiPrev)
      nmiPrev := l.nmi
      resPending := s.ctl.resPending || (l.res && !s.ctl.resPrev)
      resPrev := l.res
      irqLine := l.irq
      rdyLine := l.rdy } }

/-- The input of the next tick arrives and its lines are sampled; past the given list all lines are 0 (entry 3). -/
def State.arrive (s : State) : State :=
  { s.sample (s.inputs.headD Lines.idle) with inputs := s.inputs.tail }

/-- Step (3) of a tick (R91): DL takes the D field of the input. -/
def State.latchDl (s : State) : State := { s with latch := { s.latch with dl := s.dbus } }

/-- Emit a read cycle and let the memory map answer it. D on the pins is the D field of this tick's input (R88). -/
def State.emitRead (a : Word) (sync : Bool) (s : State) : State :=
  (s.drive { addr := a, read := true, data := s.dbus, sync := sync }).accessRead a

/-- Emit a write cycle and let the memory map take it. -/
def State.emitWrite (a : Word) (v : Byte) (s : State) : State :=
  (s.drive { addr := a, read := false, data := v, sync := false }).accessWrite a v

/-- The ticks that receive a read cycle's byte: each samples its lines; while RDY asks to wait, the same read is made again
(R93); the first tick that does not wait latches DL (R91). -/
def State.settleRead (a : Word) (sync : Bool) : List Lines → State → State
  | [], s => State.latchDl { s.sample Lines.idle with inputs := [] }
  | l :: ls, s =>
    if l.rdy then State.settleRead a sync ls (State.emitRead a sync { s.sample l with inputs := ls })
    else State.latchDl { s.sample l with inputs := ls }

/-- `MemRead(a)` (R10), up to and including the tick that latches its byte into DL. -/
def State.readCycle (a : Word) (sync : Bool) (s : State) : State :=
  State.settleRead a sync s.inputs (s.emitRead a sync)

/-- `MemWrite(a, v)` (R10), up to and including the sampling of the next tick, which ignores RDY (R93). -/
def State.writeCycle (a : Word) (v : Byte) (s : State) : State := (s.emitWrite a v).arrive

/-! ### Rows of a cycle table (R13) -/

/-- One row of a cycle table: the address, the byte if it is a write cycle, the SYNC line, the action, and whether the cycle
happens (the rows marked + or t, R13). The address, the byte and the condition read the state as it stands before the cycle. -/
structure Row where
  addr : State → Word
  value : Option (State → Byte)
  sync : Bool
  act : State → State
  happens : State → Bool

/-- A read row that always happens. -/
def rd (addr : State → Word) (act : State → State) : Row :=
  { addr := addr, value := none, sync := false, act := act, happens := fun _ => true }

/-- A write row that always happens. -/
def wr (addr : State → Word) (value : State → Byte) (act : State → State) : Row :=
  { addr := addr, value := some value, sync := false, act := act, happens := fun _ => true }

/-- The row happens only when `cond` holds (R13). -/
def Row.onlyIf (r : Row) (cond : State → Bool) : Row := { r with happens := cond }

/-- The row asserts SYNC (R88). -/
def Row.withSync (r : Row) : Row := { r with sync := true }

/-- One row as one bus cycle. The action of a read row takes effect when its byte arrives, that of a write row in the tick that
emits it (R92). -/
def Row.run (r : Row) (s : State) : State :=
  match r.value with
  | none => r.act (s.readCycle (r.addr s) r.sync)
  | some v => (r.act s).writeCycle (r.addr s) (v s)

/-- The rows of a cycle table in order, those that do not happen left out. -/
def runRows : List Row → State → State
  | [], s => s
  | r :: rs, s => if r.happens s then runRows rs (r.run s) else runRows rs s

/-- What an instruction does once its operand bytes have been fetched: `start` takes effect with the last of those fetches, then
come the rows of the remaining cycles. -/
structure Plan where
  start : State → State
  rows : List Row

/-- Perform a plan. -/
def Plan.run (p : Plan) (s : State) : State := runRows p.rows (p.start s)

/-! ### Registers and latches -/

/-- Change the register file. -/
def State.onRegs (f : Regs → Regs) (s : State) : State := { s with regs := f s.regs }

/-- PC <- w (R9). -/
def State.setPc (w : Word) (s : State) : State := { s with regs := { s.regs with pc := w } }

/-- PC <- u16(PC + 1) (R35). -/
def State.incPc (s : State) : State := { s with regs := { s.regs with pc := s.regs.pc + 1 } }

/-- S <- u8(S - 1) (R34). -/
def State.decS (s : State) : State := { s with regs := { s.regs with s := s.regs.s - 1 } }

/-- S <- u8(S + 1) (R34). -/
def State.incS (s : State) : State := { s with regs := { s.regs with s := s.regs.s + 1 } }

/-- P.I <- 1 (R305, R411, R450). -/
def State.setI (s : State) : State := { s with regs := { s.regs with p := { s.regs.p with i := true } } }

/-- inhibit <- 1 (R407). -/
def State.setInhibit (s : State) : State := { s with ctl := { s.ctl with inhibit := true } }

/-- The low operand or pointer byte: ADL <- DL (R45). -/
def State.latchLo (s : State) : State := { s with latch := { s.latch with adl := s.latch.dl } }

/-- The high operand or pointer byte: ADH <- DL (R45). -/
def State.latchHi (s : State) : State := { s with latch := { s.latch with adh := s.latch.dl } }

/-- PC <- the word whose bytes were latched low, then high. -/
def State.jumpToLatched (s : State) : State := s.setPc (pair s.latch.adh s.latch.adl)

/-- The address PC. -/
def atPc (s : State) : Word := s.regs.pc

/-- StackAddr(S) (R34). -/
def stackAddr (sp : Byte) : Word := 0x0100 ||| zext sp

/-- The stack address of S as it stands (R34). -/
def atStack (s : State) : Word := stackAddr s.regs.s

/-- A fixed address. -/
def fixedAt (w : Word) (_ : State) : Word := w

/-! ### The status byte (R39) -/

/-- PackP(b): the fields of P with bit 5 = 1 and bit 4 = b, bit 7 first (R39). -/
def packP (b : Bool) (p : Status) : Byte :=
  BitVec.ofBool p.n ++ BitVec.ofBool p.v ++ 1#1 ++ BitVec.ofBool b ++ BitVec.ofBool p.d ++ BitVec.ofBool p.i
    ++ BitVec.ofBool p.z ++ BitVec.ofBool p.c

/-- UnpackP(v): bits 5 and 4 are ignored (R39). -/
def unpackP (v : Byte) : Status where
  c := v.getLsbD 0
  z := v.getLsbD 1
  i := v.getLsbD 2
  d := v.getLsbD 3
  v := v.getLsbD 6
  n := v.getLsbD 7

/-- P <- UnpackP(DL) (R243, R304). -/
def State.pullP (s : State) : State := { s with regs := { s.regs with p := unpackP s.latch.dl } }

/-! ### Taking an interrupt, and the return (R304, R305, R411, R450) -/

/-- The NMI vector (R410). -/
def nmiVector : Word := 0xFFFA

/-- The RESET vector (R410). -/
def resetVector : Word := 0xFFFC

/-- The IRQ and BRK vector (R410). -/
def irqVector : Word := 0xFFFE

/-- The two reads that load PC from the vector at `vec`, low byte first (R410); they end a sequence, so `inhibit` is set (R407). -/
def vectorRows (vec : Word) : List Row :=
  [rd (fixedAt vec) State.latchLo,
   rd (fixedAt (vec + 1)) (fun s => s.latchHi.jumpToLatched.setInhibit)]

/-- Taking an interrupt or BRK: PCH, PCL and the status byte with B = `b` are pushed, I is set, PC is loaded from `vec`
(cycles 3 to 7 of R411 and of R305). -/
def entryRows (vec : Word) (b : Bool) : List Row :=
  [wr atStack (fun s => hi s.regs.pc) State.decS,
   wr atStack (fun s => lo s.regs.pc) State.decS,
   wr atStack (fun s => packP b s.regs.p) (fun s => s.decS.setI)] ++ vectorRows vec

/-- The IRQ and NMI sequence (R411): a discarded opcode fetch, a dummy read, the entry with B = 0. -/
def interruptRows (vec : Word) : List Row :=
  [(rd atPc id).withSync, rd atPc id] ++ entryRows vec false

/-- The return from interrupt, cycles 2 to 6 of R304. -/
def returnRows : List Row :=
  [rd atPc id,
   rd atStack State.incS,
   rd atStack (fun s => s.pullP.incS),
   rd atStack (fun s => s.latchLo.incS),
   rd atStack (fun s => s.latchHi.jumpToLatched)]

/-- The reset sequence (R450): three stack reads with S going down, I set, PC from the reset vector; RESET_CYCLES = 7 puts one more
dummy read of PC before it. -/
def resetRows (cfg : Config) : List Row :=
  (if cfg.resetCycles = 7 then [rd atPc id] else []) ++
  [rd atPc id,
   rd atStack State.decS,
   rd atStack State.decS,
   rd atStack (fun s => s.decS.setI)] ++ vectorRows resetVector

/-- The one cycle of the jammed state (R56, R372). -/
def jamRows : List Row := [rd (fixedAt 0xFFFF) id]

/-! ### The instruction boundary (R405) -/

/-- The boundary decision: which sequence starts, with its latch cleared (R405). -/
def State.boundary (s : State) : Seq × State :=
  if s.seq = .jammed then
    if s.ctl.resPending then (.reset, { s with ctl := { s.ctl with resPending := false } }) else (.jammed, s)
  else if s.ctl.inhibit then (.instr, { s with ctl := { s.ctl with inhibit := false } })
  else if s.ctl.resPending then (.reset, { s with ctl := { s.ctl with resPending := false } })
  else if s.ctl.nmiPending then (.nmi, { s with ctl := { s.ctl with nmiPending := false } })
  else if s.ctl.irqLine && !s.regs.p.i then (.irq, s)
  else (.instr, s)

/-- The rows of a sequence that is no instruction (none for `instr`, whose rows depend on the opcode). -/
def sequenceRows (q : Seq) (cfg : Config) : List Row :=
  match q with
  | .instr => []
  | .irq => interruptRows irqVector
  | .nmi => interruptRows nmiVector
  | .reset => resetRows cfg
  | .jammed => jamRows

/-- `seq` between two sequences: jammed, or at a boundary with none running (entry 10). -/
def restingSeq (q : Seq) : Seq := if q = .jammed then .jammed else .instr

/-- Perform an IRQ, NMI or reset sequence, or one jammed tick, after the boundary decision chose it. -/
def State.runSequence (q : Seq) (s : State) : State :=
  runRows (sequenceRows q s.cfg) { s with seq := restingSeq q }

/-! ### Fetching an instruction (R172) -/

/-- Cycle 1 of every instruction: `IR <- Fetch(PC); PC <- u16(PC + 1)`, SYNC = 1 (R172). -/
def fetchRow : Row :=
  (rd atPc (fun s => { s with latch := { s.latch with ir := s.latch.dl } }.incPc)).withSync

/-- `FetchOperand()` into ADL (R172). -/
def operandLoRow : Row := rd atPc (fun s => s.latchLo.incPc)

/-- `FetchOperand()` into ADH (R172). -/
def operandHiRow : Row := rd atPc (fun s => s.latchHi.incPc)

/-- The fetches of `n` operand bytes, low byte first (R172). -/
def operandRows : Nat → List Row
  | 0 => []
  | 1 => [operandLoRow]
  | _ => [operandLoRow, operandHiRow]

/-- A one-byte operand in the latches, as its fetch leaves it. -/
def operand8 (b : Byte) (s : State) : State := { s with latch := { s.latch with adl := b, dl := b } }

/-- A two-byte operand in the latches, low byte fetched first (R142), as its fetches leave it. -/
def operand16 (w : Word) (s : State) : State :=
  { s with latch := { s.latch with adl := lo w, adh := hi w, dl := hi w } }

/-- The meaning of an instruction without operand bytes. -/
def runPlan0 (p : Plan) (s : State) : Result := .next (p.run s)

/-- The meaning of an instruction with a one-byte operand. -/
def runPlan8 (p : Plan) (b : Byte) (s : State) : Result := .next (p.run (operand8 b s))

/-- The meaning of an instruction with a two-byte operand. -/
def runPlan16 (p : Plan) (w : Word) (s : State) : Result := .next (p.run (operand16 w s))

end Sys2Proof.Machine
end

