-- ==== Sys2Proof/Machine/Flags.lean ====
section
/-!
DEFINITION. The flag and ALU functions of 43_alu.md section 1 and of R12, computed on exact integers and narrowed at the end.
-/

namespace Sys2Proof.Machine

/-- SetNZ(v) (R12). -/
def setNZ (v : Byte) (r : Regs) : Regs := { r with p := { r.p with z := v == 0, n := v.getLsbD 7 } }

/-- The result and flags of an addition or subtraction (R250). -/
structure AluResult where
  r : Byte
  c : Bool
  v : Bool
  n : Bool
  z : Bool
deriving DecidableEq, Repr

/-- BinaryAdd(a, m, c) (R250). -/
def binaryAdd (a m : Byte) (c : Bool) : AluResult :=
  let s := a.toNat + m.toNat + c.toNat
  let r := BitVec.ofNat 8 s
  { r := r
    c := decide (s > 0xFF)
    v := ((~~~(a ^^^ m)) &&& (a ^^^ r)).getLsbD 7
    n := r.getLsbD 7
    z := r == 0 }

/-- BinarySub(a, m, c) (R252): carry set means no borrow. -/
def binarySub (a m : Byte) (c : Bool) : AluResult := binaryAdd a (m ^^^ 0xFF) c

/-- DecimalAdd(a, m, c) (R251). -/
def decimalAdd (a m : Byte) (c : Bool) : AluResult :=
  let al0 := (a &&& 0x0F).toNat + (m &&& 0x0F).toNat + c.toNat
  let al := if al0 ≥ 0x0A then (al0 + 0x06) % 16 + 0x10 else al0
  let s := (a &&& 0xF0).toNat + (m &&& 0xF0).toNat + al
  let ss : Int := (a &&& 0xF0).toInt + (m &&& 0xF0).toInt + al
  let s' := if s ≥ 0xA0 then s + 0x60 else s
  { r := BitVec.ofNat 8 s'
    c := decide (s' ≥ 0x100)
    v := decide (ss < -128) || decide (ss > 127)
    n := s.testBit 7
    z := BitVec.ofNat 8 (a.toNat + m.toNat + c.toNat) == 0 }

/-- DecimalSub(a, m, c) (R253): the flags are those of the binary subtraction. -/
def decimalSub (a m : Byte) (c : Bool) : AluResult :=
  let al0 : Int := (a &&& 0x0F).toNat - (m &&& 0x0F).toNat + c.toNat - 1
  let al : Int := if al0 < 0 then (al0 - 0x06) % 16 - 0x10 else al0
  let s : Int := (a &&& 0xF0).toNat - (m &&& 0xF0).toNat + al
  let s' : Int := if s < 0 then s - 0x60 else s
  { binarySub a m c with r := BitVec.ofInt 8 s' }

/-- `A <- r` and the four flags (R254, R255). -/
def setAlu (q : AluResult) (r : Regs) : Regs :=
  { r with a := q.r, p := { r.p with c := q.c, v := q.v, n := q.n, z := q.z } }

/-- The ADC operation (R254). -/
def addWithCarry (cfg : Config) (m : Byte) (r : Regs) : Regs :=
  setAlu (if cfg.decimalMode && r.p.d then decimalAdd r.a m r.p.c else binaryAdd r.a m r.p.c) r

/-- The SBC operation (R255). -/
def subWithBorrow (cfg : Config) (m : Byte) (r : Regs) : Regs :=
  setAlu (if cfg.decimalMode && r.p.d then decimalSub r.a m r.p.c else binarySub r.a m r.p.c) r

/-- Compare(r, m) for a register value `x` (R259). -/
def compare (x m : Byte) (r : Regs) : Regs :=
  { r with p := { r.p with c := decide (x ≥ m), z := x == m, n := (x - m).getLsbD 7 } }

/-- The shifted byte and the flags N, Z, C (R286 to R289): `out` is the bit shifted out. -/
def setNZC (v : Byte) (out : Bool) (r : Regs) : Regs :=
  { r with p := { r.p with c := out, z := v == 0, n := v.getLsbD 7 } }

/-- `u8(m << 1) | c` (R286, R288). -/
def shiftLeft (m : Byte) (c : Bool) : Byte := (m <<< 1) ||| (BitVec.ofBool c).setWidth 8

/-- `(m >> 1) | (c << 7)` (R287, R289). -/
def shiftRight (m : Byte) (c : Bool) : Byte := (m >>> 1) ||| ((BitVec.ofBool c).setWidth 8 <<< 7)

end Sys2Proof.Machine
end

