-- ==== Sys2Proof/Syntax.lean ====
section
/-!
DEFINITION. The instructions as data: addressing modes (R141), access classes (R171), operation tags and descriptors (R143), and
Instr with one constructor for each of the 256 rows of spec/opcode_table.json. Every opcode byte has its own constructor (R143,
R152), so rows that share a mnemonic and a mode (NOP, JAM, ANC) carry their opcode in the name.
-/

namespace Sys2Proof

/-- The 13 addressing modes (R141). -/
inductive Mode where
  | implied
  | accumulator
  | immediate
  | zeroPage
  | zeroPageX
  | zeroPageY
  | absolute
  | absoluteX
  | absoluteY
  | indirect
  | indirectX
  | indirectY
  | relative
deriving DecidableEq, Repr

/-- The access classes (R171). -/
inductive Access where
  | read
  | write
  | readModifyWrite
  | internal
  | stackControl
  | branch
  | jam
deriving DecidableEq, Repr

/-- The operation tags: the mnemonics of R149. -/
inductive Operation where
  | ADC | ALR | ANC | AND | ANE | ARR | ASL | BCC | BCS | BEQ | BIT
  | BMI | BNE | BPL | BRK | BVC | BVS | CLC | CLD | CLI | CLV | CMP
  | CPX | CPY | DCP | DEC | DEX | DEY | EOR | INC | INX | INY | ISC
  | JAM | JMP | JSR | LAS | LAX | LDA | LDX | LDY | LSR | LXA | NOP
  | ORA | PHA | PHP | PLA | PLP | RLA | ROL | ROR | RRA | RTI | RTS
  | SAX | SBC | SBX | SEC | SED | SEI | SHA | SHX | SHY | SLO | SRE
  | STA | STX | STY | TAS | TAX | TAY | TSX | TXA | TXS | TYA | USBC
deriving DecidableEq, Repr

/-- An instruction descriptor (R143): opcode, operation tag, mode, base cycle count, page-crossing penalty flag (R146), access class
(R171), illegal flag. -/
structure Descriptor where
  opcode : Byte
  op : Operation
  mode : Mode
  cycles : Nat
  penalty : Bool
  access : Access
  illegal : Bool
deriving DecidableEq, Repr

/-- Operand bytes after the opcode, by mode alone (R140, R141). -/
def Mode.operandBytes : Mode → Nat
  | .implied | .accumulator => 0
  | .immediate | .zeroPage | .zeroPageX | .zeroPageY | .indirectX | .indirectY | .relative => 1
  | .absolute | .absoluteX | .absoluteY | .indirect => 2

/-- The length of an instruction in bytes (R148). -/
def Descriptor.length (d : Descriptor) : Nat := 1 + d.mode.operandBytes

/-- The 256 instructions with their operands (R141, R147), those with operand bytes first. BRK's padding byte is no operand (R305). -/
inductive Instr where
  /-- 01: ORA ($nn,X) (R257) -/
  | oraIndX (zp : Byte)
  /-- 03: SLO ($nn,X) (R351) -/
  | sloIndX (zp : Byte)
  /-- 04: NOP $nn (R371) -/
  | nopZp04 (zp : Byte)
  /-- 05: ORA $nn (R257) -/
  | oraZp (zp : Byte)
  /-- 06: ASL $nn (R286) -/
  | aslZp (zp : Byte)
  /-- 07: SLO $nn (R351) -/
  | sloZp (zp : Byte)
  /-- 09: ORA #$nn (R257) -/
  | oraImm (imm : Byte)
  /-- 0B: ANC #$nn (R359) -/
  | ancImm0B (imm : Byte)
  /-- 0C: NOP $hhll (R371) -/
  | nopAbs (abs : Word)
  /-- 0D: ORA $hhll (R257) -/
  | oraAbs (abs : Word)
  /-- 0E: ASL $hhll (R286) -/
  | aslAbs (abs : Word)
  /-- 0F: SLO $hhll (R351) -/
  | sloAbs (abs : Word)
  /-- 10: BPL $rr (R307) -/
  | bpl (rel : Byte)
  /-- 11: ORA ($nn),Y (R257) -/
  | oraIndY (zp : Byte)
  /-- 13: SLO ($nn),Y (R351) -/
  | sloIndY (zp : Byte)
  /-- 14: NOP $nn,X (R371) -/
  | nopZpX14 (zp : Byte)
  /-- 15: ORA $nn,X (R257) -/
  | oraZpX (zp : Byte)
  /-- 16: ASL $nn,X (R286) -/
  | aslZpX (zp : Byte)
  /-- 17: SLO $nn,X (R351) -/
  | sloZpX (zp : Byte)
  /-- 19: ORA $hhll,Y (R257) -/
  | oraAbsY (abs : Word)
  /-- 1B: SLO $hhll,Y (R351) -/
  | sloAbsY (abs : Word)
  /-- 1C: NOP $hhll,X (R371) -/
  | nopAbsX1C (abs : Word)
  /-- 1D: ORA $hhll,X (R257) -/
  | oraAbsX (abs : Word)
  /-- 1E: ASL $hhll,X (R286) -/
  | aslAbsX (abs : Word)
  /-- 1F: SLO $hhll,X (R351) -/
  | sloAbsX (abs : Word)
  /-- 20: JSR $hhll (R302) -/
  | jsr (target : Word)
  /-- 21: AND ($nn,X) (R256) -/
  | andIndX (zp : Byte)
  /-- 23: RLA ($nn,X) (R352) -/
  | rlaIndX (zp : Byte)
  /-- 24: BIT $nn (R263) -/
  | bitZp (zp : Byte)
  /-- 25: AND $nn (R256) -/
  | andZp (zp : Byte)
  /-- 26: ROL $nn (R288) -/
  | rolZp (zp : Byte)
  /-- 27: RLA $nn (R352) -/
  | rlaZp (zp : Byte)
  /-- 29: AND #$nn (R256) -/
  | andImm (imm : Byte)
  /-- 2B: ANC #$nn (R359) -/
  | ancImm2B (imm : Byte)
  /-- 2C: BIT $hhll (R263) -/
  | bitAbs (abs : Word)
  /-- 2D: AND $hhll (R256) -/
  | andAbs (abs : Word)
  /-- 2E: ROL $hhll (R288) -/
  | rolAbs (abs : Word)
  /-- 2F: RLA $hhll (R352) -/
  | rlaAbs (abs : Word)
  /-- 30: BMI $rr (R308) -/
  | bmi (rel : Byte)
  /-- 31: AND ($nn),Y (R256) -/
  | andIndY (zp : Byte)
  /-- 33: RLA ($nn),Y (R352) -/
  | rlaIndY (zp : Byte)
  /-- 34: NOP $nn,X (R371) -/
  | nopZpX34 (zp : Byte)
  /-- 35: AND $nn,X (R256) -/
  | andZpX (zp : Byte)
  /-- 36: ROL $nn,X (R288) -/
  | rolZpX (zp : Byte)
  /-- 37: RLA $nn,X (R352) -/
  | rlaZpX (zp : Byte)
  /-- 39: AND $hhll,Y (R256) -/
  | andAbsY (abs : Word)
  /-- 3B: RLA $hhll,Y (R352) -/
  | rlaAbsY (abs : Word)
  /-- 3C: NOP $hhll,X (R371) -/
  | nopAbsX3C (abs : Word)
  /-- 3D: AND $hhll,X (R256) -/
  | andAbsX (abs : Word)
  /-- 3E: ROL $hhll,X (R288) -/
  | rolAbsX (abs : Word)
  /-- 3F: RLA $hhll,X (R352) -/
  | rlaAbsX (abs : Word)
  /-- 41: EOR ($nn,X) (R258) -/
  | eorIndX (zp : Byte)
  /-- 43: SRE ($nn,X) (R353) -/
  | sreIndX (zp : Byte)
  /-- 44: NOP $nn (R371) -/
  | nopZp44 (zp : Byte)
  /-- 45: EOR $nn (R258) -/
  | eorZp (zp : Byte)
  /-- 46: LSR $nn (R287) -/
  | lsrZp (zp : Byte)
  /-- 47: SRE $nn (R353) -/
  | sreZp (zp : Byte)
  /-- 49: EOR #$nn (R258) -/
  | eorImm (imm : Byte)
  /-- 4B: ALR #$nn (R360) -/
  | alrImm (imm : Byte)
  /-- 4C: JMP $hhll (R300) -/
  | jmpAbs (target : Word)
  /-- 4D: EOR $hhll (R258) -/
  | eorAbs (abs : Word)
  /-- 4E: LSR $hhll (R287) -/
  | lsrAbs (abs : Word)
  /-- 4F: SRE $hhll (R353) -/
  | sreAbs (abs : Word)
  /-- 50: BVC $rr (R309) -/
  | bvc (rel : Byte)
  /-- 51: EOR ($nn),Y (R258) -/
  | eorIndY (zp : Byte)
  /-- 53: SRE ($nn),Y (R353) -/
  | sreIndY (zp : Byte)
  /-- 54: NOP $nn,X (R371) -/
  | nopZpX54 (zp : Byte)
  /-- 55: EOR $nn,X (R258) -/
  | eorZpX (zp : Byte)
  /-- 56: LSR $nn,X (R287) -/
  | lsrZpX (zp : Byte)
  /-- 57: SRE $nn,X (R353) -/
  | sreZpX (zp : Byte)
  /-- 59: EOR $hhll,Y (R258) -/
  | eorAbsY (abs : Word)
  /-- 5B: SRE $hhll,Y (R353) -/
  | sreAbsY (abs : Word)
  /-- 5C: NOP $hhll,X (R371) -/
  | nopAbsX5C (abs : Word)
  /-- 5D: EOR $hhll,X (R258) -/
  | eorAbsX (abs : Word)
  /-- 5E: LSR $hhll,X (R287) -/
  | lsrAbsX (abs : Word)
  /-- 5F: SRE $hhll,X (R353) -/
  | sreAbsX (abs : Word)
  /-- 61: ADC ($nn,X) (R254) -/
  | adcIndX (zp : Byte)
  /-- 63: RRA ($nn,X) (R354) -/
  | rraIndX (zp : Byte)
  /-- 64: NOP $nn (R371) -/
  | nopZp64 (zp : Byte)
  /-- 65: ADC $nn (R254) -/
  | adcZp (zp : Byte)
  /-- 66: ROR $nn (R289) -/
  | rorZp (zp : Byte)
  /-- 67: RRA $nn (R354) -/
  | rraZp (zp : Byte)
  /-- 69: ADC #$nn (R254) -/
  | adcImm (imm : Byte)
  /-- 6B: ARR #$nn (R361) -/
  | arrImm (imm : Byte)
  /-- 6C: JMP ($hhll) (R301) -/
  | jmpInd (ptr : Word)
  /-- 6D: ADC $hhll (R254) -/
  | adcAbs (abs : Word)
  /-- 6E: ROR $hhll (R289) -/
  | rorAbs (abs : Word)
  /-- 6F: RRA $hhll (R354) -/
  | rraAbs (abs : Word)
  /-- 70: BVS $rr (R310) -/
  | bvs (rel : Byte)
  /-- 71: ADC ($nn),Y (R254) -/
  | adcIndY (zp : Byte)
  /-- 73: RRA ($nn),Y (R354) -/
  | rraIndY (zp : Byte)
  /-- 74: NOP $nn,X (R371) -/
  | nopZpX74 (zp : Byte)
  /-- 75: ADC $nn,X (R254) -/
  | adcZpX (zp : Byte)
  /-- 76: ROR $nn,X (R289) -/
  | rorZpX (zp : Byte)
  /-- 77: RRA $nn,X (R354) -/
  | rraZpX (zp : Byte)
  /-- 79: ADC $hhll,Y (R254) -/
  | adcAbsY (abs : Word)
  /-- 7B: RRA $hhll,Y (R354) -/
  | rraAbsY (abs : Word)
  /-- 7C: NOP $hhll,X (R371) -/
  | nopAbsX7C (abs : Word)
  /-- 7D: ADC $hhll,X (R254) -/
  | adcAbsX (abs : Word)
  /-- 7E: ROR $hhll,X (R289) -/
  | rorAbsX (abs : Word)
  /-- 7F: RRA $hhll,X (R354) -/
  | rraAbsX (abs : Word)
  /-- 80: NOP #$nn (R371) -/
  | nopImm80 (imm : Byte)
  /-- 81: STA ($nn,X) (R223) -/
  | staIndX (zp : Byte)
  /-- 82: NOP #$nn (R371) -/
  | nopImm82 (imm : Byte)
  /-- 83: SAX ($nn,X) (R355) -/
  | saxIndX (zp : Byte)
  /-- 84: STY $nn (R225) -/
  | styZp (zp : Byte)
  /-- 85: STA $nn (R223) -/
  | staZp (zp : Byte)
  /-- 86: STX $nn (R224) -/
  | stxZp (zp : Byte)
  /-- 87: SAX $nn (R355) -/
  | saxZp (zp : Byte)
  /-- 89: NOP #$nn (R371) -/
  | nopImm89 (imm : Byte)
  /-- 8B: ANE #$nn (R362) -/
  | aneImm (imm : Byte)
  /-- 8C: STY $hhll (R225) -/
  | styAbs (abs : Word)
  /-- 8D: STA $hhll (R223) -/
  | staAbs (abs : Word)
  /-- 8E: STX $hhll (R224) -/
  | stxAbs (abs : Word)
  /-- 8F: SAX $hhll (R355) -/
  | saxAbs (abs : Word)
  /-- 90: BCC $rr (R311) -/
  | bcc (rel : Byte)
  /-- 91: STA ($nn),Y (R223) -/
  | staIndY (zp : Byte)
  /-- 93: SHA ($nn),Y (R366) -/
  | shaIndY (zp : Byte)
  /-- 94: STY $nn,X (R225) -/
  | styZpX (zp : Byte)
  /-- 95: STA $nn,X (R223) -/
  | staZpX (zp : Byte)
  /-- 96: STX $nn,Y (R224) -/
  | stxZpY (zp : Byte)
  /-- 97: SAX $nn,Y (R355) -/
  | saxZpY (zp : Byte)
  /-- 99: STA $hhll,Y (R223) -/
  | staAbsY (abs : Word)
  /-- 9B: TAS $hhll,Y (R369) -/
  | tasAbsY (abs : Word)
  /-- 9C: SHY $hhll,X (R368) -/
  | shyAbsX (abs : Word)
  /-- 9D: STA $hhll,X (R223) -/
  | staAbsX (abs : Word)
  /-- 9E: SHX $hhll,Y (R367) -/
  | shxAbsY (abs : Word)
  /-- 9F: SHA $hhll,Y (R366) -/
  | shaAbsY (abs : Word)
  /-- A0: LDY #$nn (R222) -/
  | ldyImm (imm : Byte)
  /-- A1: LDA ($nn,X) (R220) -/
  | ldaIndX (zp : Byte)
  /-- A2: LDX #$nn (R221) -/
  | ldxImm (imm : Byte)
  /-- A3: LAX ($nn,X) (R356) -/
  | laxIndX (zp : Byte)
  /-- A4: LDY $nn (R222) -/
  | ldyZp (zp : Byte)
  /-- A5: LDA $nn (R220) -/
  | ldaZp (zp : Byte)
  /-- A6: LDX $nn (R221) -/
  | ldxZp (zp : Byte)
  /-- A7: LAX $nn (R356) -/
  | laxZp (zp : Byte)
  /-- A9: LDA #$nn (R220) -/
  | ldaImm (imm : Byte)
  /-- AB: LXA #$nn (R363) -/
  | lxaImm (imm : Byte)
  /-- AC: LDY $hhll (R222) -/
  | ldyAbs (abs : Word)
  /-- AD: LDA $hhll (R220) -/
  | ldaAbs (abs : Word)
  /-- AE: LDX $hhll (R221) -/
  | ldxAbs (abs : Word)
  /-- AF: LAX $hhll (R356) -/
  | laxAbs (abs : Word)
  /-- B0: BCS $rr (R312) -/
  | bcs (rel : Byte)
  /-- B1: LDA ($nn),Y (R220) -/
  | ldaIndY (zp : Byte)
  /-- B3: LAX ($nn),Y (R356) -/
  | laxIndY (zp : Byte)
  /-- B4: LDY $nn,X (R222) -/
  | ldyZpX (zp : Byte)
  /-- B5: LDA $nn,X (R220) -/
  | ldaZpX (zp : Byte)
  /-- B6: LDX $nn,Y (R221) -/
  | ldxZpY (zp : Byte)
  /-- B7: LAX $nn,Y (R356) -/
  | laxZpY (zp : Byte)
  /-- B9: LDA $hhll,Y (R220) -/
  | ldaAbsY (abs : Word)
  /-- BB: LAS $hhll,Y (R370) -/
  | lasAbsY (abs : Word)
  /-- BC: LDY $hhll,X (R222) -/
  | ldyAbsX (abs : Word)
  /-- BD: LDA $hhll,X (R220) -/
  | ldaAbsX (abs : Word)
  /-- BE: LDX $hhll,Y (R221) -/
  | ldxAbsY (abs : Word)
  /-- BF: LAX $hhll,Y (R356) -/
  | laxAbsY (abs : Word)
  /-- C0: CPY #$nn (R262) -/
  | cpyImm (imm : Byte)
  /-- C1: CMP ($nn,X) (R260) -/
  | cmpIndX (zp : Byte)
  /-- C2: NOP #$nn (R371) -/
  | nopImmC2 (imm : Byte)
  /-- C3: DCP ($nn,X) (R357) -/
  | dcpIndX (zp : Byte)
  /-- C4: CPY $nn (R262) -/
  | cpyZp (zp : Byte)
  /-- C5: CMP $nn (R260) -/
  | cmpZp (zp : Byte)
  /-- C6: DEC $nn (R281) -/
  | decZp (zp : Byte)
  /-- C7: DCP $nn (R357) -/
  | dcpZp (zp : Byte)
  /-- C9: CMP #$nn (R260) -/
  | cmpImm (imm : Byte)
  /-- CB: SBX #$nn (R364) -/
  | sbxImm (imm : Byte)
  /-- CC: CPY $hhll (R262) -/
  | cpyAbs (abs : Word)
  /-- CD: CMP $hhll (R260) -/
  | cmpAbs (abs : Word)
  /-- CE: DEC $hhll (R281) -/
  | decAbs (abs : Word)
  /-- CF: DCP $hhll (R357) -/
  | dcpAbs (abs : Word)
  /-- D0: BNE $rr (R313) -/
  | bne (rel : Byte)
  /-- D1: CMP ($nn),Y (R260) -/
  | cmpIndY (zp : Byte)
  /-- D3: DCP ($nn),Y (R357) -/
  | dcpIndY (zp : Byte)
  /-- D4: NOP $nn,X (R371) -/
  | nopZpXD4 (zp : Byte)
  /-- D5: CMP $nn,X (R260) -/
  | cmpZpX (zp : Byte)
  /-- D6: DEC $nn,X (R281) -/
  | decZpX (zp : Byte)
  /-- D7: DCP $nn,X (R357) -/
  | dcpZpX (zp : Byte)
  /-- D9: CMP $hhll,Y (R260) -/
  | cmpAbsY (abs : Word)
  /-- DB: DCP $hhll,Y (R357) -/
  | dcpAbsY (abs : Word)
  /-- DC: NOP $hhll,X (R371) -/
  | nopAbsXDC (abs : Word)
  /-- DD: CMP $hhll,X (R260) -/
  | cmpAbsX (abs : Word)
  /-- DE: DEC $hhll,X (R281) -/
  | decAbsX (abs : Word)
  /-- DF: DCP $hhll,X (R357) -/
  | dcpAbsX (abs : Word)
  /-- E0: CPX #$nn (R261) -/
  | cpxImm (imm : Byte)
  /-- E1: SBC ($nn,X) (R255) -/
  | sbcIndX (zp : Byte)
  /-- E2: NOP #$nn (R371) -/
  | nopImmE2 (imm : Byte)
  /-- E3: ISC ($nn,X) (R358) -/
  | iscIndX (zp : Byte)
  /-- E4: CPX $nn (R261) -/
  | cpxZp (zp : Byte)
  /-- E5: SBC $nn (R255) -/
  | sbcZp (zp : Byte)
  /-- E6: INC $nn (R280) -/
  | incZp (zp : Byte)
  /-- E7: ISC $nn (R358) -/
  | iscZp (zp : Byte)
  /-- E9: SBC #$nn (R255) -/
  | sbcImm (imm : Byte)
  /-- EB: USBC #$nn (R365) -/
  | usbcImm (imm : Byte)
  /-- EC: CPX $hhll (R261) -/
  | cpxAbs (abs : Word)
  /-- ED: SBC $hhll (R255) -/
  | sbcAbs (abs : Word)
  /-- EE: INC $hhll (R280) -/
  | incAbs (abs : Word)
  /-- EF: ISC $hhll (R358) -/
  | iscAbs (abs : Word)
  /-- F0: BEQ $rr (R314) -/
  | beq (rel : Byte)
  /-- F1: SBC ($nn),Y (R255) -/
  | sbcIndY (zp : Byte)
  /-- F3: ISC ($nn),Y (R358) -/
  | iscIndY (zp : Byte)
  /-- F4: NOP $nn,X (R371) -/
  | nopZpXF4 (zp : Byte)
  /-- F5: SBC $nn,X (R255) -/
  | sbcZpX (zp : Byte)
  /-- F6: INC $nn,X (R280) -/
  | incZpX (zp : Byte)
  /-- F7: ISC $nn,X (R358) -/
  | iscZpX (zp : Byte)
  /-- F9: SBC $hhll,Y (R255) -/
  | sbcAbsY (abs : Word)
  /-- FB: ISC $hhll,Y (R358) -/
  | iscAbsY (abs : Word)
  /-- FC: NOP $hhll,X (R371) -/
  | nopAbsXFC (abs : Word)
  /-- FD: SBC $hhll,X (R255) -/
  | sbcAbsX (abs : Word)
  /-- FE: INC $hhll,X (R280) -/
  | incAbsX (abs : Word)
  /-- FF: ISC $hhll,X (R358) -/
  | iscAbsX (abs : Word)
  /-- 00: BRK (R305) -/
  | brk
  /-- 02: JAM (R372) -/
  | jam02
  /-- 08: PHP (R241) -/
  | php
  /-- 0A: ASL A (R286) -/
  | aslAcc
  /-- 12: JAM (R372) -/
  | jam12
  /-- 18: CLC (R330) -/
  | clc
  /-- 1A: NOP (R371) -/
  | nop1A
  /-- 22: JAM (R372) -/
  | jam22
  /-- 28: PLP (R243) -/
  | plp
  /-- 2A: ROL A (R288) -/
  | rolAcc
  /-- 32: JAM (R372) -/
  | jam32
  /-- 38: SEC (R331) -/
  | sec
  /-- 3A: NOP (R371) -/
  | nop3A
  /-- 40: RTI (R304) -/
  | rti
  /-- 42: JAM (R372) -/
  | jam42
  /-- 48: PHA (R240) -/
  | pha
  /-- 4A: LSR A (R287) -/
  | lsrAcc
  /-- 52: JAM (R372) -/
  | jam52
  /-- 58: CLI (R332) -/
  | cli
  /-- 5A: NOP (R371) -/
  | nop5A
  /-- 60: RTS (R303) -/
  | rts
  /-- 62: JAM (R372) -/
  | jam62
  /-- 68: PLA (R242) -/
  | pla
  /-- 6A: ROR A (R289) -/
  | rorAcc
  /-- 72: JAM (R372) -/
  | jam72
  /-- 78: SEI (R333) -/
  | sei
  /-- 7A: NOP (R371) -/
  | nop7A
  /-- 88: DEY (R285) -/
  | dey
  /-- 8A: TXA (R228) -/
  | txa
  /-- 92: JAM (R372) -/
  | jam92
  /-- 98: TYA (R229) -/
  | tya
  /-- 9A: TXS (R231) -/
  | txs
  /-- A8: TAY (R227) -/
  | tay
  /-- AA: TAX (R226) -/
  | tax
  /-- B2: JAM (R372) -/
  | jamB2
  /-- B8: CLV (R336) -/
  | clv
  /-- BA: TSX (R230) -/
  | tsx
  /-- C8: INY (R283) -/
  | iny
  /-- CA: DEX (R284) -/
  | dex
  /-- D2: JAM (R372) -/
  | jamD2
  /-- D8: CLD (R334) -/
  | cld
  /-- DA: NOP (R371) -/
  | nopDA
  /-- E8: INX (R282) -/
  | inx
  /-- EA: NOP (R337) -/
  | nop
  /-- F2: JAM (R372) -/
  | jamF2
  /-- F8: SED (R335) -/
  | sed
  /-- FA: NOP (R371) -/
  | nopFA
deriving DecidableEq, Repr

end Sys2Proof
end

