-- ==== Sys2Proof/Machine/Operands.lean ====
section
/-!
DEFINITION. The addressing modes (R170 to R196): effective addresses and the rows of every access class in every mode. A plan
starts with the last operand byte's fetch just completed (R172).
-/

namespace Sys2Proof.Machine

/-- OpRead(m) (R171): what a read-class operation does with the byte it reads. By its type it changes registers and flags only. -/
abbrev ReadOp := Config → Byte → Regs → Regs

/-- OpStore() (R171): the byte a write-class operation stores. -/
abbrev StoreOp := Regs → Byte

/-- OpRMW(m) (R171): the result byte, and the registers and flags. -/
abbrev RmwOp := Config → Byte → Regs → Byte × Regs

/-- OpInternal() (R171). -/
abbrev InternalOp := Regs → Regs

/-- EA <- `w`; the resolver's output for a mode that cannot cross a page (R170, R178). -/
def State.setEa (w : Word) (s : State) : State := { s with latch := { s.latch with ea := w, crossed := false } }

/-- EA, crossed and BAH for the latched base and the index `i` (R182). -/
def State.indexBy (i : Byte) (s : State) : State :=
  { s with latch := { s.latch with
      ea := pair s.latch.adh s.latch.adl + zext i
      crossed := decide (s.latch.adl.toNat + i.toNat > 0xFF)
      bah := s.latch.adh } }

/-- EA <- the latched word; BAH <- its high byte (R180, R187). -/
def State.eaFromLatched (s : State) : State :=
  { s with latch := { s.latch with
      ea := pair s.latch.adh s.latch.adl
      crossed := false
      bah := s.latch.adh } }

/-- The effective address. -/
def atEa (s : State) : Word := s.latch.ea

/-- The uncorrected address UA (R182). -/
def atUa (s : State) : Word := pair s.latch.bah (lo s.latch.ea)

/-- The address after EA with the page kept (R186, R187, R189). -/
def atEaNext (s : State) : Word := pair (hi s.latch.ea) (lo s.latch.ea + 1)

/-- What the last operand fetch does to the address latches (R176, R180, R182): zero-page modes form the unindexed zero-page
address, absolute modes EA. -/
def formAddress (m : Mode) (s : State) : State :=
  match m with
  | .implied | .accumulator | .immediate | .relative => s
  | .zeroPage | .zeroPageX | .zeroPageY | .indirectX | .indirectY => s.setEa (zext s.latch.adl)
  | .absolute | .indirect => s.eaFromLatched
  | .absoluteX => s.indexBy s.regs.x
  | .absoluteY => s.indexBy s.regs.y

/-- The address cycles between the operand fetches and the first cycle at UA or EA (R179, R188, R190). -/
def addressRows (m : Mode) : List Row :=
  match m with
  | .zeroPageX => [rd atEa (fun s => s.setEa (zext (s.latch.adl + s.regs.x)))]
  | .zeroPageY => [rd atEa (fun s => s.setEa (zext (s.latch.adl + s.regs.y)))]
  | .indirectX =>
    [rd atEa (fun s => s.setEa (zext (s.latch.adl + s.regs.x))),
     rd atEa State.latchLo,
     rd atEaNext (fun s => s.latchHi.eaFromLatched)]
  | .indirectY =>
    [rd atEa State.latchLo,
     rd atEaNext (fun s => s.latchHi.indexBy s.regs.y)]
  | .implied | .accumulator | .immediate | .relative | .zeroPage | .absolute | .absoluteX | .absoluteY | .indirect => []

/-- The modes whose indexing can cross a page (R146, R182, R189). -/
def canCross (m : Mode) : Bool :=
  match m with
  | .absoluteX | .absoluteY | .indirectY => true
  | .implied | .accumulator | .immediate | .relative | .zeroPage | .zeroPageX | .zeroPageY | .absolute | .indirect
  | .indirectX => false

/-- OpRead of the byte in DL. -/
def State.applyRead (op : ReadOp) (s : State) : State := { s with regs := op s.cfg s.latch.dl s.regs }

/-- The data cycles of the read class (R177, R179, R181, R183, R188, R190). -/
def readRows (m : Mode) (op : ReadOp) : List Row :=
  if canCross m then
    [rd atUa (fun s => if s.latch.crossed then s else s.applyRead op),
     (rd atEa (State.applyRead op)).onlyIf (fun s => s.latch.crossed)]
  else [rd atEa (State.applyRead op)]

/-- Read class in mode `m`; immediate has no effective address and its operation comes with the operand fetch (R175). -/
def readPlan (m : Mode) (op : ReadOp) : Plan :=
  match m with
  | .immediate => { start := State.applyRead op, rows := [] }
  | m => { start := formAddress m, rows := addressRows m ++ readRows m op }

/-- The dummy read of UA that stores and read-modify-writes always make in the modes that can cross (R184, R185, R191, R192). -/
def uncorrectedRows (m : Mode) : List Row := if canCross m then [rd atUa id] else []

/-- Write class (R177, R179, R181, R184, R188, R191). -/
def writePlan (m : Mode) (op : StoreOp) : Plan where
  start := formAddress m
  rows := addressRows m ++ uncorrectedRows m ++ [wr atEa (fun s => op s.regs) id]

/-- `r <- OpRMW(m)`, with `m` in DL and `r` kept for the next cycle (R171). -/
def State.applyRmw (op : RmwOp) (s : State) : State :=
  let q := op s.cfg s.latch.dl s.regs
  { s with regs := q.2, latch := { s.latch with res := q.1 } }

/-- The data cycles of a read-modify-write: read, write back unchanged, write the result (R171). -/
def rmwRows (op : RmwOp) : List Row :=
  [rd atEa id,
   wr atEa (fun s => s.latch.dl) (State.applyRmw op),
   wr atEa (fun s => s.latch.res) id]

/-- Read-modify-write class (R177, R179, R181, R185, R188, R192, R196). -/
def rmwPlan (m : Mode) (op : RmwOp) : Plan where
  start := formAddress m
  rows := addressRows m ++ uncorrectedRows m ++ rmwRows op

/-- Internal class: a dummy read of the next byte, then the operation (R173). -/
def internalPlan (op : InternalOp) : Plan where
  start := id
  rows := [rd atPc (State.onRegs op)]

/-- Accumulator mode: `A <- OpRMW(A)` (R174). -/
def onA (op : RmwOp) (cfg : Config) (r : Regs) : Regs :=
  let q := op cfg r.a r
  { q.2 with a := q.1 }

/-- Accumulator mode of a shift (R174). -/
def accumulatorPlan (op : RmwOp) : Plan where
  start := id
  rows := [rd atPc (fun s => { s with regs := onA op s.cfg s.regs })]

/-- The branch target T and whether it lies in another page than PC, kept in EA and crossed (R193, R306). -/
def State.formTarget (s : State) : State :=
  let target := s.regs.pc + sext s.latch.adl
  { s with latch := { s.latch with ea := target, crossed := decide (hi target ≠ hi s.regs.pc) } }

/-- PC <- T. -/
def State.takeTarget (s : State) : State := s.setPc s.latch.ea

/-- The branch sequence after its operand fetch (R306): nothing when `cond` is false; else a dummy read at PC, and one more of the
uncorrected address when the target is in another page. -/
def branchPlan (cond : Status → Bool) : Plan where
  start := id
  rows :=
    [(rd atPc (fun s => if s.formTarget.latch.crossed then s.formTarget else s.formTarget.takeTarget)).onlyIf
       (fun s => cond s.regs.p),
     (rd (fun s => pair (hi s.regs.pc) (lo s.latch.ea)) State.takeTarget).onlyIf
       (fun s => cond s.regs.p && s.latch.crossed)]

end Sys2Proof.Machine
end

