-- ==== Sys2Proof/Machine/Alu.lean ====
section
/-!
DEFINITION. Arithmetic, logic, compare and bit-test instructions (43_alu.md).
-/

namespace Sys2Proof.Machine

/-- R254. -/
def opAdc : ReadOp := addWithCarry

/-- R255. -/
def opSbc : ReadOp := subWithBorrow

/-- R256. -/
def opAnd : ReadOp := fun _ m r => setNZ (r.a &&& m) { r with a := r.a &&& m }

/-- R257. -/
def opOra : ReadOp := fun _ m r => setNZ (r.a ||| m) { r with a := r.a ||| m }

/-- R258. -/
def opEor : ReadOp := fun _ m r => setNZ (r.a ^^^ m) { r with a := r.a ^^^ m }

/-- R260. -/
def opCmp : ReadOp := fun _ m r => compare r.a m r

/-- R261. -/
def opCpx : ReadOp := fun _ m r => compare r.x m r

/-- R262. -/
def opCpy : ReadOp := fun _ m r => compare r.y m r

/-- R263: N and V are bits 7 and 6 of the memory byte. -/
def opBit : ReadOp := fun _ m r =>
  { r with p := { r.p with z := (r.a &&& m) == 0, n := m.getLsbD 7, v := m.getLsbD 6 } }

/-! ### The meanings, one per opcode -/

/-- 01: ORA ($nn,X), 6 cycles (R257). -/
def execOraIndX (zp : Byte) (s : State) : Result := runPlan8 (readPlan .indirectX opOra) zp s

/-- 05: ORA $nn, 3 cycles (R257). -/
def execOraZp (zp : Byte) (s : State) : Result := runPlan8 (readPlan .zeroPage opOra) zp s

/-- 09: ORA #$nn, 2 cycles (R257). -/
def execOraImm (imm : Byte) (s : State) : Result := runPlan8 (readPlan .immediate opOra) imm s

/-- 0D: ORA $hhll, 4 cycles (R257). -/
def execOraAbs (abs : Word) (s : State) : Result := runPlan16 (readPlan .absolute opOra) abs s

/-- 11: ORA ($nn),Y, 5+1 if page crossed cycles (R257). -/
def execOraIndY (zp : Byte) (s : State) : Result := runPlan8 (readPlan .indirectY opOra) zp s

/-- 15: ORA $nn,X, 4 cycles (R257). -/
def execOraZpX (zp : Byte) (s : State) : Result := runPlan8 (readPlan .zeroPageX opOra) zp s

/-- 19: ORA $hhll,Y, 4+1 if page crossed cycles (R257). -/
def execOraAbsY (abs : Word) (s : State) : Result := runPlan16 (readPlan .absoluteY opOra) abs s

/-- 1D: ORA $hhll,X, 4+1 if page crossed cycles (R257). -/
def execOraAbsX (abs : Word) (s : State) : Result := runPlan16 (readPlan .absoluteX opOra) abs s

/-- 21: AND ($nn,X), 6 cycles (R256). -/
def execAndIndX (zp : Byte) (s : State) : Result := runPlan8 (readPlan .indirectX opAnd) zp s

/-- 24: BIT $nn, 3 cycles (R263). -/
def execBitZp (zp : Byte) (s : State) : Result := runPlan8 (readPlan .zeroPage opBit) zp s

/-- 25: AND $nn, 3 cycles (R256). -/
def execAndZp (zp : Byte) (s : State) : Result := runPlan8 (readPlan .zeroPage opAnd) zp s

/-- 29: AND #$nn, 2 cycles (R256). -/
def execAndImm (imm : Byte) (s : State) : Result := runPlan8 (readPlan .immediate opAnd) imm s

/-- 2C: BIT $hhll, 4 cycles (R263). -/
def execBitAbs (abs : Word) (s : State) : Result := runPlan16 (readPlan .absolute opBit) abs s

/-- 2D: AND $hhll, 4 cycles (R256). -/
def execAndAbs (abs : Word) (s : State) : Result := runPlan16 (readPlan .absolute opAnd) abs s

/-- 31: AND ($nn),Y, 5+1 if page crossed cycles (R256). -/
def execAndIndY (zp : Byte) (s : State) : Result := runPlan8 (readPlan .indirectY opAnd) zp s

/-- 35: AND $nn,X, 4 cycles (R256). -/
def execAndZpX (zp : Byte) (s : State) : Result := runPlan8 (readPlan .zeroPageX opAnd) zp s

/-- 39: AND $hhll,Y, 4+1 if page crossed cycles (R256). -/
def execAndAbsY (abs : Word) (s : State) : Result := runPlan16 (readPlan .absoluteY opAnd) abs s

/-- 3D: AND $hhll,X, 4+1 if page crossed cycles (R256). -/
def execAndAbsX (abs : Word) (s : State) : Result := runPlan16 (readPlan .absoluteX opAnd) abs s

/-- 41: EOR ($nn,X), 6 cycles (R258). -/
def execEorIndX (zp : Byte) (s : State) : Result := runPlan8 (readPlan .indirectX opEor) zp s

/-- 45: EOR $nn, 3 cycles (R258). -/
def execEorZp (zp : Byte) (s : State) : Result := runPlan8 (readPlan .zeroPage opEor) zp s

/-- 49: EOR #$nn, 2 cycles (R258). -/
def execEorImm (imm : Byte) (s : State) : Result := runPlan8 (readPlan .immediate opEor) imm s

/-- 4D: EOR $hhll, 4 cycles (R258). -/
def execEorAbs (abs : Word) (s : State) : Result := runPlan16 (readPlan .absolute opEor) abs s

/-- 51: EOR ($nn),Y, 5+1 if page crossed cycles (R258). -/
def execEorIndY (zp : Byte) (s : State) : Result := runPlan8 (readPlan .indirectY opEor) zp s

/-- 55: EOR $nn,X, 4 cycles (R258). -/
def execEorZpX (zp : Byte) (s : State) : Result := runPlan8 (readPlan .zeroPageX opEor) zp s

/-- 59: EOR $hhll,Y, 4+1 if page crossed cycles (R258). -/
def execEorAbsY (abs : Word) (s : State) : Result := runPlan16 (readPlan .absoluteY opEor) abs s

/-- 5D: EOR $hhll,X, 4+1 if page crossed cycles (R258). -/
def execEorAbsX (abs : Word) (s : State) : Result := runPlan16 (readPlan .absoluteX opEor) abs s

/-- 61: ADC ($nn,X), 6 cycles (R254). -/
def execAdcIndX (zp : Byte) (s : State) : Result := runPlan8 (readPlan .indirectX opAdc) zp s

/-- 65: ADC $nn, 3 cycles (R254). -/
def execAdcZp (zp : Byte) (s : State) : Result := runPlan8 (readPlan .zeroPage opAdc) zp s

/-- 69: ADC #$nn, 2 cycles (R254). -/
def execAdcImm (imm : Byte) (s : State) : Result := runPlan8 (readPlan .immediate opAdc) imm s

/-- 6D: ADC $hhll, 4 cycles (R254). -/
def execAdcAbs (abs : Word) (s : State) : Result := runPlan16 (readPlan .absolute opAdc) abs s

/-- 71: ADC ($nn),Y, 5+1 if page crossed cycles (R254). -/
def execAdcIndY (zp : Byte) (s : State) : Result := runPlan8 (readPlan .indirectY opAdc) zp s

/-- 75: ADC $nn,X, 4 cycles (R254). -/
def execAdcZpX (zp : Byte) (s : State) : Result := runPlan8 (readPlan .zeroPageX opAdc) zp s

/-- 79: ADC $hhll,Y, 4+1 if page crossed cycles (R254). -/
def execAdcAbsY (abs : Word) (s : State) : Result := runPlan16 (readPlan .absoluteY opAdc) abs s

/-- 7D: ADC $hhll,X, 4+1 if page crossed cycles (R254). -/
def execAdcAbsX (abs : Word) (s : State) : Result := runPlan16 (readPlan .absoluteX opAdc) abs s

/-- C0: CPY #$nn, 2 cycles (R262). -/
def execCpyImm (imm : Byte) (s : State) : Result := runPlan8 (readPlan .immediate opCpy) imm s

/-- C1: CMP ($nn,X), 6 cycles (R260). -/
def execCmpIndX (zp : Byte) (s : State) : Result := runPlan8 (readPlan .indirectX opCmp) zp s

/-- C4: CPY $nn, 3 cycles (R262). -/
def execCpyZp (zp : Byte) (s : State) : Result := runPlan8 (readPlan .zeroPage opCpy) zp s

/-- C5: CMP $nn, 3 cycles (R260). -/
def execCmpZp (zp : Byte) (s : State) : Result := runPlan8 (readPlan .zeroPage opCmp) zp s

/-- C9: CMP #$nn, 2 cycles (R260). -/
def execCmpImm (imm : Byte) (s : State) : Result := runPlan8 (readPlan .immediate opCmp) imm s

/-- CC: CPY $hhll, 4 cycles (R262). -/
def execCpyAbs (abs : Word) (s : State) : Result := runPlan16 (readPlan .absolute opCpy) abs s

/-- CD: CMP $hhll, 4 cycles (R260). -/
def execCmpAbs (abs : Word) (s : State) : Result := runPlan16 (readPlan .absolute opCmp) abs s

/-- D1: CMP ($nn),Y, 5+1 if page crossed cycles (R260). -/
def execCmpIndY (zp : Byte) (s : State) : Result := runPlan8 (readPlan .indirectY opCmp) zp s

/-- D5: CMP $nn,X, 4 cycles (R260). -/
def execCmpZpX (zp : Byte) (s : State) : Result := runPlan8 (readPlan .zeroPageX opCmp) zp s

/-- D9: CMP $hhll,Y, 4+1 if page crossed cycles (R260). -/
def execCmpAbsY (abs : Word) (s : State) : Result := runPlan16 (readPlan .absoluteY opCmp) abs s

/-- DD: CMP $hhll,X, 4+1 if page crossed cycles (R260). -/
def execCmpAbsX (abs : Word) (s : State) : Result := runPlan16 (readPlan .absoluteX opCmp) abs s

/-- E0: CPX #$nn, 2 cycles (R261). -/
def execCpxImm (imm : Byte) (s : State) : Result := runPlan8 (readPlan .immediate opCpx) imm s

/-- E1: SBC ($nn,X), 6 cycles (R255). -/
def execSbcIndX (zp : Byte) (s : State) : Result := runPlan8 (readPlan .indirectX opSbc) zp s

/-- E4: CPX $nn, 3 cycles (R261). -/
def execCpxZp (zp : Byte) (s : State) : Result := runPlan8 (readPlan .zeroPage opCpx) zp s

/-- E5: SBC $nn, 3 cycles (R255). -/
def execSbcZp (zp : Byte) (s : State) : Result := runPlan8 (readPlan .zeroPage opSbc) zp s

/-- E9: SBC #$nn, 2 cycles (R255). -/
def execSbcImm (imm : Byte) (s : State) : Result := runPlan8 (readPlan .immediate opSbc) imm s

/-- EC: CPX $hhll, 4 cycles (R261). -/
def execCpxAbs (abs : Word) (s : State) : Result := runPlan16 (readPlan .absolute opCpx) abs s

/-- ED: SBC $hhll, 4 cycles (R255). -/
def execSbcAbs (abs : Word) (s : State) : Result := runPlan16 (readPlan .absolute opSbc) abs s

/-- F1: SBC ($nn),Y, 5+1 if page crossed cycles (R255). -/
def execSbcIndY (zp : Byte) (s : State) : Result := runPlan8 (readPlan .indirectY opSbc) zp s

/-- F5: SBC $nn,X, 4 cycles (R255). -/
def execSbcZpX (zp : Byte) (s : State) : Result := runPlan8 (readPlan .zeroPageX opSbc) zp s

/-- F9: SBC $hhll,Y, 4+1 if page crossed cycles (R255). -/
def execSbcAbsY (abs : Word) (s : State) : Result := runPlan16 (readPlan .absoluteY opSbc) abs s

/-- FD: SBC $hhll,X, 4+1 if page crossed cycles (R255). -/
def execSbcAbsX (abs : Word) (s : State) : Result := runPlan16 (readPlan .absoluteX opSbc) abs s

end Sys2Proof.Machine
end

