-- ==== Sys2Proof/Machine/Control.lean ====
section
/-!
DEFINITION. Control-transfer instructions (45_control.md).
-/

namespace Sys2Proof.Machine

/-- R300: PC takes the operand with its last fetch. -/
def jumpPlan : Plan where
  start := State.jumpToLatched
  rows := []

/-- R301, R186: the high byte is read at the pointer's next address in the same page. -/
def jumpIndirectPlan : Plan where
  start := formAddress .indirect
  rows := [rd atEa State.latchLo, rd atEaNext (fun s => s.latchHi.jumpToLatched)]

/-- R302, from cycle 3: PC holds the address of the high target byte, which is pushed and then read. -/
def jsrPlan : Plan where
  start := id
  rows :=
    [rd atStack id,
     wr atStack (fun s => hi s.regs.pc) State.decS,
     wr atStack (fun s => lo s.regs.pc) State.decS,
     rd atPc (fun s => s.latchHi.jumpToLatched)]

/-- R303, from cycle 2. -/
def rtsPlan : Plan where
  start := id
  rows :=
    [rd atPc id,
     rd atStack State.incS,
     rd atStack (fun s => s.latchLo.incS),
     rd atStack (fun s => s.latchHi.jumpToLatched),
     rd atPc State.incPc]

/-- R304, from cycle 2. -/
def rtiPlan : Plan where
  start := id
  rows := returnRows

/-- R305, from cycle 2: the padding byte is read and skipped, then the entry with B = 1 at the IRQ vector. -/
def brkPlan : Plan where
  start := id
  rows := rd atPc State.incPc :: entryRows irqVector true

/-- R307. -/
def condBpl (p : Status) : Bool := !p.n

/-- R308. -/
def condBmi (p : Status) : Bool := p.n

/-- R309. -/
def condBvc (p : Status) : Bool := !p.v

/-- R310. -/
def condBvs (p : Status) : Bool := p.v

/-- R311. -/
def condBcc (p : Status) : Bool := !p.c

/-- R312. -/
def condBcs (p : Status) : Bool := p.c

/-- R313. -/
def condBne (p : Status) : Bool := !p.z

/-- R314. -/
def condBeq (p : Status) : Bool := p.z

/-! ### The meanings, one per opcode -/

/-- 00: BRK, 7 cycles (R305). -/
def execBrk (s : State) : Result := runPlan0 brkPlan s

/-- 10: BPL $rr, 2, +1 if taken, +1 more if taken and page crossed cycles (R307). -/
def execBpl (rel : Byte) (s : State) : Result := runPlan8 (branchPlan condBpl) rel s

/-- 20: JSR $hhll (R302). Only the low target byte has been fetched when this begins; the high byte is read in cycle 6,
after the pushes, from the address PC then holds (entry 8). -/
def execJsr (target : Word) (s : State) : Result := runPlan8 jsrPlan (lo target) s

/-- 30: BMI $rr, 2, +1 if taken, +1 more if taken and page crossed cycles (R308). -/
def execBmi (rel : Byte) (s : State) : Result := runPlan8 (branchPlan condBmi) rel s

/-- 40: RTI, 6 cycles (R304). -/
def execRti (s : State) : Result := runPlan0 rtiPlan s

/-- 4C: JMP $hhll, 3 cycles (R300). -/
def execJmpAbs (target : Word) (s : State) : Result := runPlan16 jumpPlan target s

/-- 50: BVC $rr, 2, +1 if taken, +1 more if taken and page crossed cycles (R309). -/
def execBvc (rel : Byte) (s : State) : Result := runPlan8 (branchPlan condBvc) rel s

/-- 60: RTS, 6 cycles (R303). -/
def execRts (s : State) : Result := runPlan0 rtsPlan s

/-- 6C: JMP ($hhll), 5 cycles (R301). -/
def execJmpInd (ptr : Word) (s : State) : Result := runPlan16 jumpIndirectPlan ptr s

/-- 70: BVS $rr, 2, +1 if taken, +1 more if taken and page crossed cycles (R310). -/
def execBvs (rel : Byte) (s : State) : Result := runPlan8 (branchPlan condBvs) rel s

/-- 90: BCC $rr, 2, +1 if taken, +1 more if taken and page crossed cycles (R311). -/
def execBcc (rel : Byte) (s : State) : Result := runPlan8 (branchPlan condBcc) rel s

/-- B0: BCS $rr, 2, +1 if taken, +1 more if taken and page crossed cycles (R312). -/
def execBcs (rel : Byte) (s : State) : Result := runPlan8 (branchPlan condBcs) rel s

/-- D0: BNE $rr, 2, +1 if taken, +1 more if taken and page crossed cycles (R313). -/
def execBne (rel : Byte) (s : State) : Result := runPlan8 (branchPlan condBne) rel s

/-- F0: BEQ $rr, 2, +1 if taken, +1 more if taken and page crossed cycles (R314). -/
def execBeq (rel : Byte) (s : State) : Result := runPlan8 (branchPlan condBeq) rel s

end Sys2Proof.Machine
end

