-- ==== Sys2Proof/Machine/FlagNop.lean ====
section
/-!
DEFINITION. Flag instructions and the documented NOP (46_flags_nop.md).
-/

namespace Sys2Proof.Machine

/-- R330. -/
def opClc : InternalOp := fun r => { r with p := { r.p with c := false } }

/-- R331. -/
def opSec : InternalOp := fun r => { r with p := { r.p with c := true } }

/-- R332. -/
def opCli : InternalOp := fun r => { r with p := { r.p with i := false } }

/-- R333. -/
def opSei : InternalOp := fun r => { r with p := { r.p with i := true } }

/-- R334. -/
def opCld : InternalOp := fun r => { r with p := { r.p with d := false } }

/-- R335. -/
def opSed : InternalOp := fun r => { r with p := { r.p with d := true } }

/-- R336. -/
def opClv : InternalOp := fun r => { r with p := { r.p with v := false } }

/-- R337: nothing. -/
def opIdle : InternalOp := fun r => r

/-! ### The meanings, one per opcode -/

/-- 18: CLC, 2 cycles (R330). -/
def execClc (s : State) : Result := runPlan0 (internalPlan opClc) s

/-- 38: SEC, 2 cycles (R331). -/
def execSec (s : State) : Result := runPlan0 (internalPlan opSec) s

/-- 58: CLI, 2 cycles (R332). -/
def execCli (s : State) : Result := runPlan0 (internalPlan opCli) s

/-- 78: SEI, 2 cycles (R333). -/
def execSei (s : State) : Result := runPlan0 (internalPlan opSei) s

/-- B8: CLV, 2 cycles (R336). -/
def execClv (s : State) : Result := runPlan0 (internalPlan opClv) s

/-- D8: CLD, 2 cycles (R334). -/
def execCld (s : State) : Result := runPlan0 (internalPlan opCld) s

/-- EA: NOP, 2 cycles (R337). -/
def execNop (s : State) : Result := runPlan0 (internalPlan opIdle) s

/-- F8: SED, 2 cycles (R335). -/
def execSed (s : State) : Result := runPlan0 (internalPlan opSed) s

end Sys2Proof.Machine
end

