-- ==== Sys2Proof/Machine/IncShift.lean ====
section
/-!
DEFINITION. Increment, decrement, shift and rotate instructions (44_incdec_shift.md).
-/

namespace Sys2Proof.Machine

/-- R280. -/
def opInc : RmwOp := fun _ m r => (m + 1, setNZ (m + 1) r)

/-- R281. -/
def opDec : RmwOp := fun _ m r => (m - 1, setNZ (m - 1) r)

/-- R282. -/
def opInx : InternalOp := fun r => setNZ (r.x + 1) { r with x := r.x + 1 }

/-- R283. -/
def opIny : InternalOp := fun r => setNZ (r.y + 1) { r with y := r.y + 1 }

/-- R284. -/
def opDex : InternalOp := fun r => setNZ (r.x - 1) { r with x := r.x - 1 }

/-- R285. -/
def opDey : InternalOp := fun r => setNZ (r.y - 1) { r with y := r.y - 1 }

/-- R286: the carry takes bit 7. -/
def opAsl : RmwOp := fun _ m r =>
  let q := shiftLeft m false
  (q, setNZC q (m.getLsbD 7) r)

/-- R287: the carry takes bit 0. -/
def opLsr : RmwOp := fun _ m r =>
  let q := shiftRight m false
  (q, setNZC q (m.getLsbD 0) r)

/-- R288. -/
def opRol : RmwOp := fun _ m r =>
  let q := shiftLeft m r.p.c
  (q, setNZC q (m.getLsbD 7) r)

/-- R289. -/
def opRor : RmwOp := fun _ m r =>
  let q := shiftRight m r.p.c
  (q, setNZC q (m.getLsbD 0) r)

/-! ### The meanings, one per opcode -/

/-- 06: ASL $nn, 5 cycles (R286). -/
def execAslZp (zp : Byte) (s : State) : Result := runPlan8 (rmwPlan .zeroPage opAsl) zp s

/-- 0A: ASL A, 2 cycles (R286). -/
def execAslAcc (s : State) : Result := runPlan0 (accumulatorPlan opAsl) s

/-- 0E: ASL $hhll, 6 cycles (R286). -/
def execAslAbs (abs : Word) (s : State) : Result := runPlan16 (rmwPlan .absolute opAsl) abs s

/-- 16: ASL $nn,X, 6 cycles (R286). -/
def execAslZpX (zp : Byte) (s : State) : Result := runPlan8 (rmwPlan .zeroPageX opAsl) zp s

/-- 1E: ASL $hhll,X, 7 cycles (R286). -/
def execAslAbsX (abs : Word) (s : State) : Result := runPlan16 (rmwPlan .absoluteX opAsl) abs s

/-- 26: ROL $nn, 5 cycles (R288). -/
def execRolZp (zp : Byte) (s : State) : Result := runPlan8 (rmwPlan .zeroPage opRol) zp s

/-- 2A: ROL A, 2 cycles (R288). -/
def execRolAcc (s : State) : Result := runPlan0 (accumulatorPlan opRol) s

/-- 2E: ROL $hhll, 6 cycles (R288). -/
def execRolAbs (abs : Word) (s : State) : Result := runPlan16 (rmwPlan .absolute opRol) abs s

/-- 36: ROL $nn,X, 6 cycles (R288). -/
def execRolZpX (zp : Byte) (s : State) : Result := runPlan8 (rmwPlan .zeroPageX opRol) zp s

/-- 3E: ROL $hhll,X, 7 cycles (R288). -/
def execRolAbsX (abs : Word) (s : State) : Result := runPlan16 (rmwPlan .absoluteX opRol) abs s

/-- 46: LSR $nn, 5 cycles (R287). -/
def execLsrZp (zp : Byte) (s : State) : Result := runPlan8 (rmwPlan .zeroPage opLsr) zp s

/-- 4A: LSR A, 2 cycles (R287). -/
def execLsrAcc (s : State) : Result := runPlan0 (accumulatorPlan opLsr) s

/-- 4E: LSR $hhll, 6 cycles (R287). -/
def execLsrAbs (abs : Word) (s : State) : Result := runPlan16 (rmwPlan .absolute opLsr) abs s

/-- 56: LSR $nn,X, 6 cycles (R287). -/
def execLsrZpX (zp : Byte) (s : State) : Result := runPlan8 (rmwPlan .zeroPageX opLsr) zp s

/-- 5E: LSR $hhll,X, 7 cycles (R287). -/
def execLsrAbsX (abs : Word) (s : State) : Result := runPlan16 (rmwPlan .absoluteX opLsr) abs s

/-- 66: ROR $nn, 5 cycles (R289). -/
def execRorZp (zp : Byte) (s : State) : Result := runPlan8 (rmwPlan .zeroPage opRor) zp s

/-- 6A: ROR A, 2 cycles (R289). -/
def execRorAcc (s : State) : Result := runPlan0 (accumulatorPlan opRor) s

/-- 6E: ROR $hhll, 6 cycles (R289). -/
def execRorAbs (abs : Word) (s : State) : Result := runPlan16 (rmwPlan .absolute opRor) abs s

/-- 76: ROR $nn,X, 6 cycles (R289). -/
def execRorZpX (zp : Byte) (s : State) : Result := runPlan8 (rmwPlan .zeroPageX opRor) zp s

/-- 7E: ROR $hhll,X, 7 cycles (R289). -/
def execRorAbsX (abs : Word) (s : State) : Result := runPlan16 (rmwPlan .absoluteX opRor) abs s

/-- 88: DEY, 2 cycles (R285). -/
def execDey (s : State) : Result := runPlan0 (internalPlan opDey) s

/-- C6: DEC $nn, 5 cycles (R281). -/
def execDecZp (zp : Byte) (s : State) : Result := runPlan8 (rmwPlan .zeroPage opDec) zp s

/-- C8: INY, 2 cycles (R283). -/
def execIny (s : State) : Result := runPlan0 (internalPlan opIny) s

/-- CA: DEX, 2 cycles (R284). -/
def execDex (s : State) : Result := runPlan0 (internalPlan opDex) s

/-- CE: DEC $hhll, 6 cycles (R281). -/
def execDecAbs (abs : Word) (s : State) : Result := runPlan16 (rmwPlan .absolute opDec) abs s

/-- D6: DEC $nn,X, 6 cycles (R281). -/
def execDecZpX (zp : Byte) (s : State) : Result := runPlan8 (rmwPlan .zeroPageX opDec) zp s

/-- DE: DEC $hhll,X, 7 cycles (R281). -/
def execDecAbsX (abs : Word) (s : State) : Result := runPlan16 (rmwPlan .absoluteX opDec) abs s

/-- E6: INC $nn, 5 cycles (R280). -/
def execIncZp (zp : Byte) (s : State) : Result := runPlan8 (rmwPlan .zeroPage opInc) zp s

/-- E8: INX, 2 cycles (R282). -/
def execInx (s : State) : Result := runPlan0 (internalPlan opInx) s

/-- EE: INC $hhll, 6 cycles (R280). -/
def execIncAbs (abs : Word) (s : State) : Result := runPlan16 (rmwPlan .absolute opInc) abs s

/-- F6: INC $nn,X, 6 cycles (R280). -/
def execIncZpX (zp : Byte) (s : State) : Result := runPlan8 (rmwPlan .zeroPageX opInc) zp s

/-- FE: INC $hhll,X, 7 cycles (R280). -/
def execIncAbsX (abs : Word) (s : State) : Result := runPlan16 (rmwPlan .absoluteX opInc) abs s

end Sys2Proof.Machine
end

