-- ==== Sys2Proof/Machine/Illegal.lean ====
section
/-!
DEFINITION. The 105 undocumented opcodes (47_illegal.md).
-/

namespace Sys2Proof.Machine

/-- R351: ASL, then ORA with the result. -/
def opSlo : RmwOp := fun cfg m r =>
  let q := opAsl cfg m r
  (q.1, opOra cfg q.1 q.2)

/-- R352: ROL, then AND. -/
def opRla : RmwOp := fun cfg m r =>
  let q := opRol cfg m r
  (q.1, opAnd cfg q.1 q.2)

/-- R353: LSR, then EOR. -/
def opSre : RmwOp := fun cfg m r =>
  let q := opLsr cfg m r
  (q.1, opEor cfg q.1 q.2)

/-- R354: ROR, then ADC with the carry the rotate left. -/
def opRra : RmwOp := fun cfg m r =>
  let q := opRor cfg m r
  (q.1, opAdc cfg q.1 q.2)

/-- R357: DEC, then CMP. -/
def opDcp : RmwOp := fun _ m r => (m - 1, compare r.a (m - 1) r)

/-- R358: INC, then SBC. -/
def opIsc : RmwOp := fun cfg m r => (m + 1, opSbc cfg (m + 1) r)

/-- R355. -/
def opSax : StoreOp := fun r => r.a &&& r.x

/-- R356. -/
def opLax : ReadOp := fun _ m r => setNZ m { r with a := m, x := m }

/-- R370. -/
def opLas : ReadOp := fun _ m r =>
  let v := m &&& r.s
  setNZ v { r with a := v, x := v, s := v }

/-- R359: AND, and C takes bit 7 of the result. -/
def opAnc : ReadOp := fun cfg m r =>
  let q := opAnd cfg m r
  { q with p := { q.p with c := q.a.getLsbD 7 } }

/-- R360: AND, then LSR A. -/
def opAlr : ReadOp := fun _ m r =>
  let t := r.a &&& m
  let v := shiftRight t false
  setNZC v (t.getLsbD 0) { r with a := v }

/-- R361, binary. -/
def arrBinary (t : Byte) (r : Regs) : Regs :=
  let v := shiftRight t r.p.c
  { r with a := v, p := { r.p with z := v == 0, n := v.getLsbD 7, c := v.getLsbD 6, v := v.getLsbD 6 ^^ v.getLsbD 5 } }

/-- R361, decimal (DECIMAL_MODE and P.D = 1). -/
def arrDecimal (t : Byte) (r : Regs) : Regs :=
  let v := shiftRight t r.p.c
  let low := if (t &&& 0x0F).toNat + (t &&& 0x01).toNat > 5 then (v &&& 0xF0) ||| ((v + 6) &&& 0x0F) else v
  let carry := decide ((t >>> 4).toNat + ((t >>> 4) &&& 1).toNat > 5)
  { r with
    a := if carry then low + 0x60 else low
    p := { r.p with n := r.p.c, z := v == 0, v := (t ^^^ v).getLsbD 6, c := carry } }

/-- R361. -/
def opArr : ReadOp := fun cfg m r =>
  if cfg.decimalMode && r.p.d then arrDecimal (r.a &&& m) r else arrBinary (r.a &&& m) r

/-- R362, with the parameter ANE_MAGIC. -/
def opAne : ReadOp := fun cfg m r =>
  let v := (r.a ||| cfg.aneMagic) &&& r.x &&& m
  setNZ v { r with a := v }

/-- R363, with the parameter LXA_MAGIC. -/
def opLxa : ReadOp := fun cfg m r =>
  let v := (r.a ||| cfg.lxaMagic) &&& m
  setNZ v { r with a := v, x := v }

/-- R364: a compare-style subtraction into X. -/
def opSbx : ReadOp := fun _ m r =>
  let t := r.a &&& r.x
  setNZC (t - m) (decide (t ≥ m)) { r with x := t - m }

/-- R365: SBC immediate. -/
def opUsbc : ReadOp := subWithBorrow

/-- R371: nothing is done with the byte. -/
def opNop : ReadOp := fun _ _ r => r

/-- The byte a high-byte store writes: `reg & (BAH + 1)` (47_illegal.md section 5). -/
def highByteValue (reg : Regs → Byte) (s : State) : Byte := reg s.regs &&& (s.latch.bah + 1)

/-- Where it writes it: on a page crossing the address's high byte is the value itself (47_illegal.md section 5). -/
def highByteAddr (reg : Regs → Byte) (s : State) : Word :=
  if s.latch.crossed then pair (highByteValue reg s) (lo s.latch.ea) else s.latch.ea

/-- The high-byte stores: the write sequence of the mode (R184, R191) with the last cycle's address and value changed. -/
def highBytePlan (m : Mode) (reg : Regs → Byte) (act : State → State) : Plan where
  start := formAddress m
  rows := addressRows m ++ uncorrectedRows m ++ [wr (highByteAddr reg) (highByteValue reg) act]

/-- R366. -/
def opSha : StoreOp := fun r => r.a &&& r.x

/-- R367. -/
def opShx : StoreOp := fun r => r.x

/-- R368. -/
def opShy : StoreOp := fun r => r.y

/-- R369: the new S. -/
def opTas : StoreOp := fun r => r.a &&& r.x

/-- R369: `S <- A & X`. -/
def tasStack (s : State) : State := { s with regs := { s.regs with s := s.regs.a &&& s.regs.x } }

/-- R372: the read of the next byte, then the jammed state. -/
def jamPlan : Plan where
  start := id
  rows := [rd atPc (fun s => { s with seq := .jammed })]

/-! ### The meanings, one per opcode -/

/-- 02: JAM, 2 cycles, then halts until RESET (R372). -/
def execJam02 (s : State) : Result := runPlan0 jamPlan s

/-- 03: SLO ($nn,X), 8 cycles (R351). -/
def execSloIndX (zp : Byte) (s : State) : Result := runPlan8 (rmwPlan .indirectX opSlo) zp s

/-- 04: NOP $nn, 3 cycles (R371). -/
def execNopZp04 (zp : Byte) (s : State) : Result := runPlan8 (readPlan .zeroPage opNop) zp s

/-- 07: SLO $nn, 5 cycles (R351). -/
def execSloZp (zp : Byte) (s : State) : Result := runPlan8 (rmwPlan .zeroPage opSlo) zp s

/-- 0B: ANC #$nn, 2 cycles (R359). -/
def execAncImm0B (imm : Byte) (s : State) : Result := runPlan8 (readPlan .immediate opAnc) imm s

/-- 0C: NOP $hhll, 4 cycles (R371). -/
def execNopAbs (abs : Word) (s : State) : Result := runPlan16 (readPlan .absolute opNop) abs s

/-- 0F: SLO $hhll, 6 cycles (R351). -/
def execSloAbs (abs : Word) (s : State) : Result := runPlan16 (rmwPlan .absolute opSlo) abs s

/-- 12: JAM, 2 cycles, then halts until RESET (R372). -/
def execJam12 (s : State) : Result := runPlan0 jamPlan s

/-- 13: SLO ($nn),Y, 8 cycles (R351). -/
def execSloIndY (zp : Byte) (s : State) : Result := runPlan8 (rmwPlan .indirectY opSlo) zp s

/-- 14: NOP $nn,X, 4 cycles (R371). -/
def execNopZpX14 (zp : Byte) (s : State) : Result := runPlan8 (readPlan .zeroPageX opNop) zp s

/-- 17: SLO $nn,X, 6 cycles (R351). -/
def execSloZpX (zp : Byte) (s : State) : Result := runPlan8 (rmwPlan .zeroPageX opSlo) zp s

/-- 1A: NOP, 2 cycles (R371). -/
def execNop1A (s : State) : Result := runPlan0 (internalPlan opIdle) s

/-- 1B: SLO $hhll,Y, 7 cycles (R351). -/
def execSloAbsY (abs : Word) (s : State) : Result := runPlan16 (rmwPlan .absoluteY opSlo) abs s

/-- 1C: NOP $hhll,X, 4+1 if page crossed cycles (R371). -/
def execNopAbsX1C (abs : Word) (s : State) : Result := runPlan16 (readPlan .absoluteX opNop) abs s

/-- 1F: SLO $hhll,X, 7 cycles (R351). -/
def execSloAbsX (abs : Word) (s : State) : Result := runPlan16 (rmwPlan .absoluteX opSlo) abs s

/-- 22: JAM, 2 cycles, then halts until RESET (R372). -/
def execJam22 (s : State) : Result := runPlan0 jamPlan s

/-- 23: RLA ($nn,X), 8 cycles (R352). -/
def execRlaIndX (zp : Byte) (s : State) : Result := runPlan8 (rmwPlan .indirectX opRla) zp s

/-- 27: RLA $nn, 5 cycles (R352). -/
def execRlaZp (zp : Byte) (s : State) : Result := runPlan8 (rmwPlan .zeroPage opRla) zp s

/-- 2B: ANC #$nn, 2 cycles (R359). -/
def execAncImm2B (imm : Byte) (s : State) : Result := runPlan8 (readPlan .immediate opAnc) imm s

/-- 2F: RLA $hhll, 6 cycles (R352). -/
def execRlaAbs (abs : Word) (s : State) : Result := runPlan16 (rmwPlan .absolute opRla) abs s

/-- 32: JAM, 2 cycles, then halts until RESET (R372). -/
def execJam32 (s : State) : Result := runPlan0 jamPlan s

/-- 33: RLA ($nn),Y, 8 cycles (R352). -/
def execRlaIndY (zp : Byte) (s : State) : Result := runPlan8 (rmwPlan .indirectY opRla) zp s

/-- 34: NOP $nn,X, 4 cycles (R371). -/
def execNopZpX34 (zp : Byte) (s : State) : Result := runPlan8 (readPlan .zeroPageX opNop) zp s

/-- 37: RLA $nn,X, 6 cycles (R352). -/
def execRlaZpX (zp : Byte) (s : State) : Result := runPlan8 (rmwPlan .zeroPageX opRla) zp s

/-- 3A: NOP, 2 cycles (R371). -/
def execNop3A (s : State) : Result := runPlan0 (internalPlan opIdle) s

/-- 3B: RLA $hhll,Y, 7 cycles (R352). -/
def execRlaAbsY (abs : Word) (s : State) : Result := runPlan16 (rmwPlan .absoluteY opRla) abs s

/-- 3C: NOP $hhll,X, 4+1 if page crossed cycles (R371). -/
def execNopAbsX3C (abs : Word) (s : State) : Result := runPlan16 (readPlan .absoluteX opNop) abs s

/-- 3F: RLA $hhll,X, 7 cycles (R352). -/
def execRlaAbsX (abs : Word) (s : State) : Result := runPlan16 (rmwPlan .absoluteX opRla) abs s

/-- 42: JAM, 2 cycles, then halts until RESET (R372). -/
def execJam42 (s : State) : Result := runPlan0 jamPlan s

/-- 43: SRE ($nn,X), 8 cycles (R353). -/
def execSreIndX (zp : Byte) (s : State) : Result := runPlan8 (rmwPlan .indirectX opSre) zp s

/-- 44: NOP $nn, 3 cycles (R371). -/
def execNopZp44 (zp : Byte) (s : State) : Result := runPlan8 (readPlan .zeroPage opNop) zp s

/-- 47: SRE $nn, 5 cycles (R353). -/
def execSreZp (zp : Byte) (s : State) : Result := runPlan8 (rmwPlan .zeroPage opSre) zp s

/-- 4B: ALR #$nn, 2 cycles (R360). -/
def execAlrImm (imm : Byte) (s : State) : Result := runPlan8 (readPlan .immediate opAlr) imm s

/-- 4F: SRE $hhll, 6 cycles (R353). -/
def execSreAbs (abs : Word) (s : State) : Result := runPlan16 (rmwPlan .absolute opSre) abs s

/-- 52: JAM, 2 cycles, then halts until RESET (R372). -/
def execJam52 (s : State) : Result := runPlan0 jamPlan s

/-- 53: SRE ($nn),Y, 8 cycles (R353). -/
def execSreIndY (zp : Byte) (s : State) : Result := runPlan8 (rmwPlan .indirectY opSre) zp s

/-- 54: NOP $nn,X, 4 cycles (R371). -/
def execNopZpX54 (zp : Byte) (s : State) : Result := runPlan8 (readPlan .zeroPageX opNop) zp s

/-- 57: SRE $nn,X, 6 cycles (R353). -/
def execSreZpX (zp : Byte) (s : State) : Result := runPlan8 (rmwPlan .zeroPageX opSre) zp s

/-- 5A: NOP, 2 cycles (R371). -/
def execNop5A (s : State) : Result := runPlan0 (internalPlan opIdle) s

/-- 5B: SRE $hhll,Y, 7 cycles (R353). -/
def execSreAbsY (abs : Word) (s : State) : Result := runPlan16 (rmwPlan .absoluteY opSre) abs s

/-- 5C: NOP $hhll,X, 4+1 if page crossed cycles (R371). -/
def execNopAbsX5C (abs : Word) (s : State) : Result := runPlan16 (readPlan .absoluteX opNop) abs s

/-- 5F: SRE $hhll,X, 7 cycles (R353). -/
def execSreAbsX (abs : Word) (s : State) : Result := runPlan16 (rmwPlan .absoluteX opSre) abs s

/-- 62: JAM, 2 cycles, then halts until RESET (R372). -/
def execJam62 (s : State) : Result := runPlan0 jamPlan s

/-- 63: RRA ($nn,X), 8 cycles (R354). -/
def execRraIndX (zp : Byte) (s : State) : Result := runPlan8 (rmwPlan .indirectX opRra) zp s

/-- 64: NOP $nn, 3 cycles (R371). -/
def execNopZp64 (zp : Byte) (s : State) : Result := runPlan8 (readPlan .zeroPage opNop) zp s

/-- 67: RRA $nn, 5 cycles (R354). -/
def execRraZp (zp : Byte) (s : State) : Result := runPlan8 (rmwPlan .zeroPage opRra) zp s

/-- 6B: ARR #$nn, 2 cycles (R361). -/
def execArrImm (imm : Byte) (s : State) : Result := runPlan8 (readPlan .immediate opArr) imm s

/-- 6F: RRA $hhll, 6 cycles (R354). -/
def execRraAbs (abs : Word) (s : State) : Result := runPlan16 (rmwPlan .absolute opRra) abs s

/-- 72: JAM, 2 cycles, then halts until RESET (R372). -/
def execJam72 (s : State) : Result := runPlan0 jamPlan s

/-- 73: RRA ($nn),Y, 8 cycles (R354). -/
def execRraIndY (zp : Byte) (s : State) : Result := runPlan8 (rmwPlan .indirectY opRra) zp s

/-- 74: NOP $nn,X, 4 cycles (R371). -/
def execNopZpX74 (zp : Byte) (s : State) : Result := runPlan8 (readPlan .zeroPageX opNop) zp s

/-- 77: RRA $nn,X, 6 cycles (R354). -/
def execRraZpX (zp : Byte) (s : State) : Result := runPlan8 (rmwPlan .zeroPageX opRra) zp s

/-- 7A: NOP, 2 cycles (R371). -/
def execNop7A (s : State) : Result := runPlan0 (internalPlan opIdle) s

/-- 7B: RRA $hhll,Y, 7 cycles (R354). -/
def execRraAbsY (abs : Word) (s : State) : Result := runPlan16 (rmwPlan .absoluteY opRra) abs s

/-- 7C: NOP $hhll,X, 4+1 if page crossed cycles (R371). -/
def execNopAbsX7C (abs : Word) (s : State) : Result := runPlan16 (readPlan .absoluteX opNop) abs s

/-- 7F: RRA $hhll,X, 7 cycles (R354). -/
def execRraAbsX (abs : Word) (s : State) : Result := runPlan16 (rmwPlan .absoluteX opRra) abs s

/-- 80: NOP #$nn, 2 cycles (R371). -/
def execNopImm80 (imm : Byte) (s : State) : Result := runPlan8 (readPlan .immediate opNop) imm s

/-- 82: NOP #$nn, 2 cycles (R371). -/
def execNopImm82 (imm : Byte) (s : State) : Result := runPlan8 (readPlan .immediate opNop) imm s

/-- 83: SAX ($nn,X), 6 cycles (R355). -/
def execSaxIndX (zp : Byte) (s : State) : Result := runPlan8 (writePlan .indirectX opSax) zp s

/-- 87: SAX $nn, 3 cycles (R355). -/
def execSaxZp (zp : Byte) (s : State) : Result := runPlan8 (writePlan .zeroPage opSax) zp s

/-- 89: NOP #$nn, 2 cycles (R371). -/
def execNopImm89 (imm : Byte) (s : State) : Result := runPlan8 (readPlan .immediate opNop) imm s

/-- 8B: ANE #$nn, 2 cycles (R362). -/
def execAneImm (imm : Byte) (s : State) : Result := runPlan8 (readPlan .immediate opAne) imm s

/-- 8F: SAX $hhll, 4 cycles (R355). -/
def execSaxAbs (abs : Word) (s : State) : Result := runPlan16 (writePlan .absolute opSax) abs s

/-- 92: JAM, 2 cycles, then halts until RESET (R372). -/
def execJam92 (s : State) : Result := runPlan0 jamPlan s

/-- 93: SHA ($nn),Y, 6 cycles (R366). -/
def execShaIndY (zp : Byte) (s : State) : Result := runPlan8 (highBytePlan .indirectY opSha id) zp s

/-- 97: SAX $nn,Y, 4 cycles (R355). -/
def execSaxZpY (zp : Byte) (s : State) : Result := runPlan8 (writePlan .zeroPageY opSax) zp s

/-- 9B: TAS $hhll,Y, 5 cycles (R369). -/
def execTasAbsY (abs : Word) (s : State) : Result := runPlan16 (highBytePlan .absoluteY opTas tasStack) abs s

/-- 9C: SHY $hhll,X, 5 cycles (R368). -/
def execShyAbsX (abs : Word) (s : State) : Result := runPlan16 (highBytePlan .absoluteX opShy id) abs s

/-- 9E: SHX $hhll,Y, 5 cycles (R367). -/
def execShxAbsY (abs : Word) (s : State) : Result := runPlan16 (highBytePlan .absoluteY opShx id) abs s

/-- 9F: SHA $hhll,Y, 5 cycles (R366). -/
def execShaAbsY (abs : Word) (s : State) : Result := runPlan16 (highBytePlan .absoluteY opSha id) abs s

/-- A3: LAX ($nn,X), 6 cycles (R356). -/
def execLaxIndX (zp : Byte) (s : State) : Result := runPlan8 (readPlan .indirectX opLax) zp s

/-- A7: LAX $nn, 3 cycles (R356). -/
def execLaxZp (zp : Byte) (s : State) : Result := runPlan8 (readPlan .zeroPage opLax) zp s

/-- AB: LXA #$nn, 2 cycles (R363). -/
def execLxaImm (imm : Byte) (s : State) : Result := runPlan8 (readPlan .immediate opLxa) imm s

/-- AF: LAX $hhll, 4 cycles (R356). -/
def execLaxAbs (abs : Word) (s : State) : Result := runPlan16 (readPlan .absolute opLax) abs s

/-- B2: JAM, 2 cycles, then halts until RESET (R372). -/
def execJamB2 (s : State) : Result := runPlan0 jamPlan s

/-- B3: LAX ($nn),Y, 5+1 if page crossed cycles (R356). -/
def execLaxIndY (zp : Byte) (s : State) : Result := runPlan8 (readPlan .indirectY opLax) zp s

/-- B7: LAX $nn,Y, 4 cycles (R356). -/
def execLaxZpY (zp : Byte) (s : State) : Result := runPlan8 (readPlan .zeroPageY opLax) zp s

/-- BB: LAS $hhll,Y, 4+1 if page crossed cycles (R370). -/
def execLasAbsY (abs : Word) (s : State) : Result := runPlan16 (readPlan .absoluteY opLas) abs s

/-- BF: LAX $hhll,Y, 4+1 if page crossed cycles (R356). -/
def execLaxAbsY (abs : Word) (s : State) : Result := runPlan16 (readPlan .absoluteY opLax) abs s

/-- C2: NOP #$nn, 2 cycles (R371). -/
def execNopImmC2 (imm : Byte) (s : State) : Result := runPlan8 (readPlan .immediate opNop) imm s

/-- C3: DCP ($nn,X), 8 cycles (R357). -/
def execDcpIndX (zp : Byte) (s : State) : Result := runPlan8 (rmwPlan .indirectX opDcp) zp s

/-- C7: DCP $nn, 5 cycles (R357). -/
def execDcpZp (zp : Byte) (s : State) : Result := runPlan8 (rmwPlan .zeroPage opDcp) zp s

/-- CB: SBX #$nn, 2 cycles (R364). -/
def execSbxImm (imm : Byte) (s : State) : Result := runPlan8 (readPlan .immediate opSbx) imm s

/-- CF: DCP $hhll, 6 cycles (R357). -/
def execDcpAbs (abs : Word) (s : State) : Result := runPlan16 (rmwPlan .absolute opDcp) abs s

/-- D2: JAM, 2 cycles, then halts until RESET (R372). -/
def execJamD2 (s : State) : Result := runPlan0 jamPlan s

/-- D3: DCP ($nn),Y, 8 cycles (R357). -/
def execDcpIndY (zp : Byte) (s : State) : Result := runPlan8 (rmwPlan .indirectY opDcp) zp s

/-- D4: NOP $nn,X, 4 cycles (R371). -/
def execNopZpXD4 (zp : Byte) (s : State) : Result := runPlan8 (readPlan .zeroPageX opNop) zp s

/-- D7: DCP $nn,X, 6 cycles (R357). -/
def execDcpZpX (zp : Byte) (s : State) : Result := runPlan8 (rmwPlan .zeroPageX opDcp) zp s

/-- DA: NOP, 2 cycles (R371). -/
def execNopDA (s : State) : Result := runPlan0 (internalPlan opIdle) s

/-- DB: DCP $hhll,Y, 7 cycles (R357). -/
def execDcpAbsY (abs : Word) (s : State) : Result := runPlan16 (rmwPlan .absoluteY opDcp) abs s

/-- DC: NOP $hhll,X, 4+1 if page crossed cycles (R371). -/
def execNopAbsXDC (abs : Word) (s : State) : Result := runPlan16 (readPlan .absoluteX opNop) abs s

/-- DF: DCP $hhll,X, 7 cycles (R357). -/
def execDcpAbsX (abs : Word) (s : State) : Result := runPlan16 (rmwPlan .absoluteX opDcp) abs s

/-- E2: NOP #$nn, 2 cycles (R371). -/
def execNopImmE2 (imm : Byte) (s : State) : Result := runPlan8 (readPlan .immediate opNop) imm s

/-- E3: ISC ($nn,X), 8 cycles (R358). -/
def execIscIndX (zp : Byte) (s : State) : Result := runPlan8 (rmwPlan .indirectX opIsc) zp s

/-- E7: ISC $nn, 5 cycles (R358). -/
def execIscZp (zp : Byte) (s : State) : Result := runPlan8 (rmwPlan .zeroPage opIsc) zp s

/-- EB: USBC #$nn, 2 cycles (R365). -/
def execUsbcImm (imm : Byte) (s : State) : Result := runPlan8 (readPlan .immediate opUsbc) imm s

/-- EF: ISC $hhll, 6 cycles (R358). -/
def execIscAbs (abs : Word) (s : State) : Result := runPlan16 (rmwPlan .absolute opIsc) abs s

/-- F2: JAM, 2 cycles, then halts until RESET (R372). -/
def execJamF2 (s : State) : Result := runPlan0 jamPlan s

/-- F3: ISC ($nn),Y, 8 cycles (R358). -/
def execIscIndY (zp : Byte) (s : State) : Result := runPlan8 (rmwPlan .indirectY opIsc) zp s

/-- F4: NOP $nn,X, 4 cycles (R371). -/
def execNopZpXF4 (zp : Byte) (s : State) : Result := runPlan8 (readPlan .zeroPageX opNop) zp s

/-- F7: ISC $nn,X, 6 cycles (R358). -/
def execIscZpX (zp : Byte) (s : State) : Result := runPlan8 (rmwPlan .zeroPageX opIsc) zp s

/-- FA: NOP, 2 cycles (R371). -/
def execNopFA (s : State) : Result := runPlan0 (internalPlan opIdle) s

/-- FB: ISC $hhll,Y, 7 cycles (R358). -/
def execIscAbsY (abs : Word) (s : State) : Result := runPlan16 (rmwPlan .absoluteY opIsc) abs s

/-- FC: NOP $hhll,X, 4+1 if page crossed cycles (R371). -/
def execNopAbsXFC (abs : Word) (s : State) : Result := runPlan16 (readPlan .absoluteX opNop) abs s

/-- FF: ISC $hhll,X, 7 cycles (R358). -/
def execIscAbsX (abs : Word) (s : State) : Result := runPlan16 (rmwPlan .absoluteX opIsc) abs s

end Sys2Proof.Machine
end

