-- ==== Sys2Proof/Machine/LoadStore.lean ====
section
/-!
DEFINITION. Load, store and register-transfer instructions (41_load_store_transfer.md).
-/

namespace Sys2Proof.Machine

/-- R220. -/
def opLda : ReadOp := fun _ m r => setNZ m { r with a := m }

/-- R221. -/
def opLdx : ReadOp := fun _ m r => setNZ m { r with x := m }

/-- R222. -/
def opLdy : ReadOp := fun _ m r => setNZ m { r with y := m }

/-- R223. -/
def opSta : StoreOp := fun r => r.a

/-- R224. -/
def opStx : StoreOp := fun r => r.x

/-- R225. -/
def opSty : StoreOp := fun r => r.y

/-- R226. -/
def opTax : InternalOp := fun r => setNZ r.a { r with x := r.a }

/-- R227. -/
def opTay : InternalOp := fun r => setNZ r.a { r with y := r.a }

/-- R228. -/
def opTxa : InternalOp := fun r => setNZ r.x { r with a := r.x }

/-- R229. -/
def opTya : InternalOp := fun r => setNZ r.y { r with a := r.y }

/-- R230. -/
def opTsx : InternalOp := fun r => setNZ r.s { r with x := r.s }

/-- R231: no flag. -/
def opTxs : InternalOp := fun r => { r with s := r.x }

/-! ### The meanings, one per opcode -/

/-- 81: STA ($nn,X), 6 cycles (R223). -/
def execStaIndX (zp : Byte) (s : State) : Result := runPlan8 (writePlan .indirectX opSta) zp s

/-- 84: STY $nn, 3 cycles (R225). -/
def execStyZp (zp : Byte) (s : State) : Result := runPlan8 (writePlan .zeroPage opSty) zp s

/-- 85: STA $nn, 3 cycles (R223). -/
def execStaZp (zp : Byte) (s : State) : Result := runPlan8 (writePlan .zeroPage opSta) zp s

/-- 86: STX $nn, 3 cycles (R224). -/
def execStxZp (zp : Byte) (s : State) : Result := runPlan8 (writePlan .zeroPage opStx) zp s

/-- 8A: TXA, 2 cycles (R228). -/
def execTxa (s : State) : Result := runPlan0 (internalPlan opTxa) s

/-- 8C: STY $hhll, 4 cycles (R225). -/
def execStyAbs (abs : Word) (s : State) : Result := runPlan16 (writePlan .absolute opSty) abs s

/-- 8D: STA $hhll, 4 cycles (R223). -/
def execStaAbs (abs : Word) (s : State) : Result := runPlan16 (writePlan .absolute opSta) abs s

/-- 8E: STX $hhll, 4 cycles (R224). -/
def execStxAbs (abs : Word) (s : State) : Result := runPlan16 (writePlan .absolute opStx) abs s

/-- 91: STA ($nn),Y, 6 cycles (R223). -/
def execStaIndY (zp : Byte) (s : State) : Result := runPlan8 (writePlan .indirectY opSta) zp s

/-- 94: STY $nn,X, 4 cycles (R225). -/
def execStyZpX (zp : Byte) (s : State) : Result := runPlan8 (writePlan .zeroPageX opSty) zp s

/-- 95: STA $nn,X, 4 cycles (R223). -/
def execStaZpX (zp : Byte) (s : State) : Result := runPlan8 (writePlan .zeroPageX opSta) zp s

/-- 96: STX $nn,Y, 4 cycles (R224). -/
def execStxZpY (zp : Byte) (s : State) : Result := runPlan8 (writePlan .zeroPageY opStx) zp s

/-- 98: TYA, 2 cycles (R229). -/
def execTya (s : State) : Result := runPlan0 (internalPlan opTya) s

/-- 99: STA $hhll,Y, 5 cycles (R223). -/
def execStaAbsY (abs : Word) (s : State) : Result := runPlan16 (writePlan .absoluteY opSta) abs s

/-- 9A: TXS, 2 cycles (R231). -/
def execTxs (s : State) : Result := runPlan0 (internalPlan opTxs) s

/-- 9D: STA $hhll,X, 5 cycles (R223). -/
def execStaAbsX (abs : Word) (s : State) : Result := runPlan16 (writePlan .absoluteX opSta) abs s

/-- A0: LDY #$nn, 2 cycles (R222). -/
def execLdyImm (imm : Byte) (s : State) : Result := runPlan8 (readPlan .immediate opLdy) imm s

/-- A1: LDA ($nn,X), 6 cycles (R220). -/
def execLdaIndX (zp : Byte) (s : State) : Result := runPlan8 (readPlan .indirectX opLda) zp s

/-- A2: LDX #$nn, 2 cycles (R221). -/
def execLdxImm (imm : Byte) (s : State) : Result := runPlan8 (readPlan .immediate opLdx) imm s

/-- A4: LDY $nn, 3 cycles (R222). -/
def execLdyZp (zp : Byte) (s : State) : Result := runPlan8 (readPlan .zeroPage opLdy) zp s

/-- A5: LDA $nn, 3 cycles (R220). -/
def execLdaZp (zp : Byte) (s : State) : Result := runPlan8 (readPlan .zeroPage opLda) zp s

/-- A6: LDX $nn, 3 cycles (R221). -/
def execLdxZp (zp : Byte) (s : State) : Result := runPlan8 (readPlan .zeroPage opLdx) zp s

/-- A8: TAY, 2 cycles (R227). -/
def execTay (s : State) : Result := runPlan0 (internalPlan opTay) s

/-- A9: LDA #$nn, 2 cycles (R220). -/
def execLdaImm (imm : Byte) (s : State) : Result := runPlan8 (readPlan .immediate opLda) imm s

/-- AA: TAX, 2 cycles (R226). -/
def execTax (s : State) : Result := runPlan0 (internalPlan opTax) s

/-- AC: LDY $hhll, 4 cycles (R222). -/
def execLdyAbs (abs : Word) (s : State) : Result := runPlan16 (readPlan .absolute opLdy) abs s

/-- AD: LDA $hhll, 4 cycles (R220). -/
def execLdaAbs (abs : Word) (s : State) : Result := runPlan16 (readPlan .absolute opLda) abs s

/-- AE: LDX $hhll, 4 cycles (R221). -/
def execLdxAbs (abs : Word) (s : State) : Result := runPlan16 (readPlan .absolute opLdx) abs s

/-- B1: LDA ($nn),Y, 5+1 if page crossed cycles (R220). -/
def execLdaIndY (zp : Byte) (s : State) : Result := runPlan8 (readPlan .indirectY opLda) zp s

/-- B4: LDY $nn,X, 4 cycles (R222). -/
def execLdyZpX (zp : Byte) (s : State) : Result := runPlan8 (readPlan .zeroPageX opLdy) zp s

/-- B5: LDA $nn,X, 4 cycles (R220). -/
def execLdaZpX (zp : Byte) (s : State) : Result := runPlan8 (readPlan .zeroPageX opLda) zp s

/-- B6: LDX $nn,Y, 4 cycles (R221). -/
def execLdxZpY (zp : Byte) (s : State) : Result := runPlan8 (readPlan .zeroPageY opLdx) zp s

/-- B9: LDA $hhll,Y, 4+1 if page crossed cycles (R220). -/
def execLdaAbsY (abs : Word) (s : State) : Result := runPlan16 (readPlan .absoluteY opLda) abs s

/-- BA: TSX, 2 cycles (R230). -/
def execTsx (s : State) : Result := runPlan0 (internalPlan opTsx) s

/-- BC: LDY $hhll,X, 4+1 if page crossed cycles (R222). -/
def execLdyAbsX (abs : Word) (s : State) : Result := runPlan16 (readPlan .absoluteX opLdy) abs s

/-- BD: LDA $hhll,X, 4+1 if page crossed cycles (R220). -/
def execLdaAbsX (abs : Word) (s : State) : Result := runPlan16 (readPlan .absoluteX opLda) abs s

/-- BE: LDX $hhll,Y, 4+1 if page crossed cycles (R221). -/
def execLdxAbsY (abs : Word) (s : State) : Result := runPlan16 (readPlan .absoluteY opLdx) abs s

end Sys2Proof.Machine
end

