-- ==== Sys2Proof/Machine/Stack.lean ====
section
/-!
DEFINITION. Stack instructions (42_stack.md).
-/

namespace Sys2Proof.Machine

/-- The push sequence (R240): a dummy read of the next byte, the write, S down. -/
def pushPlan (value : Regs → Byte) : Plan where
  start := id
  rows := [rd atPc id, wr atStack (fun s => value s.regs) State.decS]

/-- The pull sequence (R242): a dummy read of the next byte, one of the stack, S up, the read. -/
def pullPlan (take : State → State) : Plan where
  start := id
  rows := [rd atPc id, rd atStack State.incS, rd atStack take]

/-- R240. -/
def phaPlan : Plan := pushPlan (fun r => r.a)

/-- R241: the pushed byte has B = 1. -/
def phpPlan : Plan := pushPlan (fun r => packP true r.p)

/-- R242. -/
def plaPlan : Plan := pullPlan (fun s => s.onRegs (fun r => setNZ s.latch.dl { r with a := s.latch.dl }))

/-- R243. -/
def plpPlan : Plan := pullPlan State.pullP

/-! ### The meanings, one per opcode -/

/-- 08: PHP, 3 cycles (R241). -/
def execPhp (s : State) : Result := runPlan0 phpPlan s

/-- 28: PLP, 4 cycles (R243). -/
def execPlp (s : State) : Result := runPlan0 plpPlan s

/-- 48: PHA, 3 cycles (R240). -/
def execPha (s : State) : Result := runPlan0 phaPlan s

/-- 68: PLA, 4 cycles (R242). -/
def execPla (s : State) : Result := runPlan0 plaPlan s

end Sys2Proof.Machine
end

