-- ==== Sys2Proof/Machine/Dispatch.lean ====
section
/-!
DEFINITION. exec: the meaning of every instruction, one arm per constructor of Instr, from the state its fetch leaves.
-/

namespace Sys2Proof.Machine

def exec (i : Instr) (s : State) : Host.Outcome State Fault Refusal :=
  match i with
  | .brk => Sys2Proof.Machine.execBrk s
  | .oraIndX zp => Sys2Proof.Machine.execOraIndX zp s
  | .jam02 => Sys2Proof.Machine.execJam02 s
  | .sloIndX zp => Sys2Proof.Machine.execSloIndX zp s
  | .nopZp04 zp => Sys2Proof.Machine.execNopZp04 zp s
  | .oraZp zp => Sys2Proof.Machine.execOraZp zp s
  | .aslZp zp => Sys2Proof.Machine.execAslZp zp s
  | .sloZp zp => Sys2Proof.Machine.execSloZp zp s
  | .php => Sys2Proof.Machine.execPhp s
  | .oraImm imm => Sys2Proof.Machine.execOraImm imm s
  | .aslAcc => Sys2Proof.Machine.execAslAcc s
  | .ancImm0B imm => Sys2Proof.Machine.execAncImm0B imm s
  | .nopAbs abs => Sys2Proof.Machine.execNopAbs abs s
  | .oraAbs abs => Sys2Proof.Machine.execOraAbs abs s
  | .aslAbs abs => Sys2Proof.Machine.execAslAbs abs s
  | .sloAbs abs => Sys2Proof.Machine.execSloAbs abs s
  | .bpl rel => Sys2Proof.Machine.execBpl rel s
  | .oraIndY zp => Sys2Proof.Machine.execOraIndY zp s
  | .jam12 => Sys2Proof.Machine.execJam12 s
  | .sloIndY zp => Sys2Proof.Machine.execSloIndY zp s
  | .nopZpX14 zp => Sys2Proof.Machine.execNopZpX14 zp s
  | .oraZpX zp => Sys2Proof.Machine.execOraZpX zp s
  | .aslZpX zp => Sys2Proof.Machine.execAslZpX zp s
  | .sloZpX zp => Sys2Proof.Machine.execSloZpX zp s
  | .clc => Sys2Proof.Machine.execClc s
  | .oraAbsY abs => Sys2Proof.Machine.execOraAbsY abs s
  | .nop1A => Sys2Proof.Machine.execNop1A s
  | .sloAbsY abs => Sys2Proof.Machine.execSloAbsY abs s
  | .nopAbsX1C abs => Sys2Proof.Machine.execNopAbsX1C abs s
  | .oraAbsX abs => Sys2Proof.Machine.execOraAbsX abs s
  | .aslAbsX abs => Sys2Proof.Machine.execAslAbsX abs s
  | .sloAbsX abs => Sys2Proof.Machine.execSloAbsX abs s
  | .jsr target => Sys2Proof.Machine.execJsr target s
  | .andIndX zp => Sys2Proof.Machine.execAndIndX zp s
  | .jam22 => Sys2Proof.Machine.execJam22 s
  | .rlaIndX zp => Sys2Proof.Machine.execRlaIndX zp s
  | .bitZp zp => Sys2Proof.Machine.execBitZp zp s
  | .andZp zp => Sys2Proof.Machine.execAndZp zp s
  | .rolZp zp => Sys2Proof.Machine.execRolZp zp s
  | .rlaZp zp => Sys2Proof.Machine.execRlaZp zp s
  | .plp => Sys2Proof.Machine.execPlp s
  | .andImm imm => Sys2Proof.Machine.execAndImm imm s
  | .rolAcc => Sys2Proof.Machine.execRolAcc s
  | .ancImm2B imm => Sys2Proof.Machine.execAncImm2B imm s
  | .bitAbs abs => Sys2Proof.Machine.execBitAbs abs s
  | .andAbs abs => Sys2Proof.Machine.execAndAbs abs s
  | .rolAbs abs => Sys2Proof.Machine.execRolAbs abs s
  | .rlaAbs abs => Sys2Proof.Machine.execRlaAbs abs s
  | .bmi rel => Sys2Proof.Machine.execBmi rel s
  | .andIndY zp => Sys2Proof.Machine.execAndIndY zp s
  | .jam32 => Sys2Proof.Machine.execJam32 s
  | .rlaIndY zp => Sys2Proof.Machine.execRlaIndY zp s
  | .nopZpX34 zp => Sys2Proof.Machine.execNopZpX34 zp s
  | .andZpX zp => Sys2Proof.Machine.execAndZpX zp s
  | .rolZpX zp => Sys2Proof.Machine.execRolZpX zp s
  | .rlaZpX zp => Sys2Proof.Machine.execRlaZpX zp s
  | .sec => Sys2Proof.Machine.execSec s
  | .andAbsY abs => Sys2Proof.Machine.execAndAbsY abs s
  | .nop3A => Sys2Proof.Machine.execNop3A s
  | .rlaAbsY abs => Sys2Proof.Machine.execRlaAbsY abs s
  | .nopAbsX3C abs => Sys2Proof.Machine.execNopAbsX3C abs s
  | .andAbsX abs => Sys2Proof.Machine.execAndAbsX abs s
  | .rolAbsX abs => Sys2Proof.Machine.execRolAbsX abs s
  | .rlaAbsX abs => Sys2Proof.Machine.execRlaAbsX abs s
  | .rti => Sys2Proof.Machine.execRti s
  | .eorIndX zp => Sys2Proof.Machine.execEorIndX zp s
  | .jam42 => Sys2Proof.Machine.execJam42 s
  | .sreIndX zp => Sys2Proof.Machine.execSreIndX zp s
  | .nopZp44 zp => Sys2Proof.Machine.execNopZp44 zp s
  | .eorZp zp => Sys2Proof.Machine.execEorZp zp s
  | .lsrZp zp => Sys2Proof.Machine.execLsrZp zp s
  | .sreZp zp => Sys2Proof.Machine.execSreZp zp s
  | .pha => Sys2Proof.Machine.execPha s
  | .eorImm imm => Sys2Proof.Machine.execEorImm imm s
  | .lsrAcc => Sys2Proof.Machine.execLsrAcc s
  | .alrImm imm => Sys2Proof.Machine.execAlrImm imm s
  | .jmpAbs target => Sys2Proof.Machine.execJmpAbs target s
  | .eorAbs abs => Sys2Proof.Machine.execEorAbs abs s
  | .lsrAbs abs => Sys2Proof.Machine.execLsrAbs abs s
  | .sreAbs abs => Sys2Proof.Machine.execSreAbs abs s
  | .bvc rel => Sys2Proof.Machine.execBvc rel s
  | .eorIndY zp => Sys2Proof.Machine.execEorIndY zp s
  | .jam52 => Sys2Proof.Machine.execJam52 s
  | .sreIndY zp => Sys2Proof.Machine.execSreIndY zp s
  | .nopZpX54 zp => Sys2Proof.Machine.execNopZpX54 zp s
  | .eorZpX zp => Sys2Proof.Machine.execEorZpX zp s
  | .lsrZpX zp => Sys2Proof.Machine.execLsrZpX zp s
  | .sreZpX zp => Sys2Proof.Machine.execSreZpX zp s
  | .cli => Sys2Proof.Machine.execCli s
  | .eorAbsY abs => Sys2Proof.Machine.execEorAbsY abs s
  | .nop5A => Sys2Proof.Machine.execNop5A s
  | .sreAbsY abs => Sys2Proof.Machine.execSreAbsY abs s
  | .nopAbsX5C abs => Sys2Proof.Machine.execNopAbsX5C abs s
  | .eorAbsX abs => Sys2Proof.Machine.execEorAbsX abs s
  | .lsrAbsX abs => Sys2Proof.Machine.execLsrAbsX abs s
  | .sreAbsX abs => Sys2Proof.Machine.execSreAbsX abs s
  | .rts => Sys2Proof.Machine.execRts s
  | .adcIndX zp => Sys2Proof.Machine.execAdcIndX zp s
  | .jam62 => Sys2Proof.Machine.execJam62 s
  | .rraIndX zp => Sys2Proof.Machine.execRraIndX zp s
  | .nopZp64 zp => Sys2Proof.Machine.execNopZp64 zp s
  | .adcZp zp => Sys2Proof.Machine.execAdcZp zp s
  | .rorZp zp => Sys2Proof.Machine.execRorZp zp s
  | .rraZp zp => Sys2Proof.Machine.execRraZp zp s
  | .pla => Sys2Proof.Machine.execPla s
  | .adcImm imm => Sys2Proof.Machine.execAdcImm imm s
  | .rorAcc => Sys2Proof.Machine.execRorAcc s
  | .arrImm imm => Sys2Proof.Machine.execArrImm imm s
  | .jmpInd ptr => Sys2Proof.Machine.execJmpInd ptr s
  | .adcAbs abs => Sys2Proof.Machine.execAdcAbs abs s
  | .rorAbs abs => Sys2Proof.Machine.execRorAbs abs s
  | .rraAbs abs => Sys2Proof.Machine.execRraAbs abs s
  | .bvs rel => Sys2Proof.Machine.execBvs rel s
  | .adcIndY zp => Sys2Proof.Machine.execAdcIndY zp s
  | .jam72 => Sys2Proof.Machine.execJam72 s
  | .rraIndY zp => Sys2Proof.Machine.execRraIndY zp s
  | .nopZpX74 zp => Sys2Proof.Machine.execNopZpX74 zp s
  | .adcZpX zp => Sys2Proof.Machine.execAdcZpX zp s
  | .rorZpX zp => Sys2Proof.Machine.execRorZpX zp s
  | .rraZpX zp => Sys2Proof.Machine.execRraZpX zp s
  | .sei => Sys2Proof.Machine.execSei s
  | .adcAbsY abs => Sys2Proof.Machine.execAdcAbsY abs s
  | .nop7A => Sys2Proof.Machine.execNop7A s
  | .rraAbsY abs => Sys2Proof.Machine.execRraAbsY abs s
  | .nopAbsX7C abs => Sys2Proof.Machine.execNopAbsX7C abs s
  | .adcAbsX abs => Sys2Proof.Machine.execAdcAbsX abs s
  | .rorAbsX abs => Sys2Proof.Machine.execRorAbsX abs s
  | .rraAbsX abs => Sys2Proof.Machine.execRraAbsX abs s
  | .nopImm80 imm => Sys2Proof.Machine.execNopImm80 imm s
  | .staIndX zp => Sys2Proof.Machine.execStaIndX zp s
  | .nopImm82 imm => Sys2Proof.Machine.execNopImm82 imm s
  | .saxIndX zp => Sys2Proof.Machine.execSaxIndX zp s
  | .styZp zp => Sys2Proof.Machine.execStyZp zp s
  | .staZp zp => Sys2Proof.Machine.execStaZp zp s
  | .stxZp zp => Sys2Proof.Machine.execStxZp zp s
  | .saxZp zp => Sys2Proof.Machine.execSaxZp zp s
  | .dey => Sys2Proof.Machine.execDey s
  | .nopImm89 imm => Sys2Proof.Machine.execNopImm89 imm s
  | .txa => Sys2Proof.Machine.execTxa s
  | .aneImm imm => Sys2Proof.Machine.execAneImm imm s
  | .styAbs abs => Sys2Proof.Machine.execStyAbs abs s
  | .staAbs abs => Sys2Proof.Machine.execStaAbs abs s
  | .stxAbs abs => Sys2Proof.Machine.execStxAbs abs s
  | .saxAbs abs => Sys2Proof.Machine.execSaxAbs abs s
  | .bcc rel => Sys2Proof.Machine.execBcc rel s
  | .staIndY zp => Sys2Proof.Machine.execStaIndY zp s
  | .jam92 => Sys2Proof.Machine.execJam92 s
  | .shaIndY zp => Sys2Proof.Machine.execShaIndY zp s
  | .styZpX zp => Sys2Proof.Machine.execStyZpX zp s
  | .staZpX zp => Sys2Proof.Machine.execStaZpX zp s
  | .stxZpY zp => Sys2Proof.Machine.execStxZpY zp s
  | .saxZpY zp => Sys2Proof.Machine.execSaxZpY zp s
  | .tya => Sys2Proof.Machine.execTya s
  | .staAbsY abs => Sys2Proof.Machine.execStaAbsY abs s
  | .txs => Sys2Proof.Machine.execTxs s
  | .tasAbsY abs => Sys2Proof.Machine.execTasAbsY abs s
  | .shyAbsX abs => Sys2Proof.Machine.execShyAbsX abs s
  | .staAbsX abs => Sys2Proof.Machine.execStaAbsX abs s
  | .shxAbsY abs => Sys2Proof.Machine.execShxAbsY abs s
  | .shaAbsY abs => Sys2Proof.Machine.execShaAbsY abs s
  | .ldyImm imm => Sys2Proof.Machine.execLdyImm imm s
  | .ldaIndX zp => Sys2Proof.Machine.execLdaIndX zp s
  | .ldxImm imm => Sys2Proof.Machine.execLdxImm imm s
  | .laxIndX zp => Sys2Proof.Machine.execLaxIndX zp s
  | .ldyZp zp => Sys2Proof.Machine.execLdyZp zp s
  | .ldaZp zp => Sys2Proof.Machine.execLdaZp zp s
  | .ldxZp zp => Sys2Proof.Machine.execLdxZp zp s
  | .laxZp zp => Sys2Proof.Machine.execLaxZp zp s
  | .tay => Sys2Proof.Machine.execTay s
  | .ldaImm imm => Sys2Proof.Machine.execLdaImm imm s
  | .tax => Sys2Proof.Machine.execTax s
  | .lxaImm imm => Sys2Proof.Machine.execLxaImm imm s
  | .ldyAbs abs => Sys2Proof.Machine.execLdyAbs abs s
  | .ldaAbs abs => Sys2Proof.Machine.execLdaAbs abs s
  | .ldxAbs abs => Sys2Proof.Machine.execLdxAbs abs s
  | .laxAbs abs => Sys2Proof.Machine.execLaxAbs abs s
  | .bcs rel => Sys2Proof.Machine.execBcs rel s
  | .ldaIndY zp => Sys2Proof.Machine.execLdaIndY zp s
  | .jamB2 => Sys2Proof.Machine.execJamB2 s
  | .laxIndY zp => Sys2Proof.Machine.execLaxIndY zp s
  | .ldyZpX zp => Sys2Proof.Machine.execLdyZpX zp s
  | .ldaZpX zp => Sys2Proof.Machine.execLdaZpX zp s
  | .ldxZpY zp => Sys2Proof.Machine.execLdxZpY zp s
  | .laxZpY zp => Sys2Proof.Machine.execLaxZpY zp s
  | .clv => Sys2Proof.Machine.execClv s
  | .ldaAbsY abs => Sys2Proof.Machine.execLdaAbsY abs s
  | .tsx => Sys2Proof.Machine.execTsx s
  | .lasAbsY abs => Sys2Proof.Machine.execLasAbsY abs s
  | .ldyAbsX abs => Sys2Proof.Machine.execLdyAbsX abs s
  | .ldaAbsX abs => Sys2Proof.Machine.execLdaAbsX abs s
  | .ldxAbsY abs => Sys2Proof.Machine.execLdxAbsY abs s
  | .laxAbsY abs => Sys2Proof.Machine.execLaxAbsY abs s
  | .cpyImm imm => Sys2Proof.Machine.execCpyImm imm s
  | .cmpIndX zp => Sys2Proof.Machine.execCmpIndX zp s
  | .nopImmC2 imm => Sys2Proof.Machine.execNopImmC2 imm s
  | .dcpIndX zp => Sys2Proof.Machine.execDcpIndX zp s
  | .cpyZp zp => Sys2Proof.Machine.execCpyZp zp s
  | .cmpZp zp => Sys2Proof.Machine.execCmpZp zp s
  | .decZp zp => Sys2Proof.Machine.execDecZp zp s
  | .dcpZp zp => Sys2Proof.Machine.execDcpZp zp s
  | .iny => Sys2Proof.Machine.execIny s
  | .cmpImm imm => Sys2Proof.Machine.execCmpImm imm s
  | .dex => Sys2Proof.Machine.execDex s
  | .sbxImm imm => Sys2Proof.Machine.execSbxImm imm s
  | .cpyAbs abs => Sys2Proof.Machine.execCpyAbs abs s
  | .cmpAbs abs => Sys2Proof.Machine.execCmpAbs abs s
  | .decAbs abs => Sys2Proof.Machine.execDecAbs abs s
  | .dcpAbs abs => Sys2Proof.Machine.execDcpAbs abs s
  | .bne rel => Sys2Proof.Machine.execBne rel s
  | .cmpIndY zp => Sys2Proof.Machine.execCmpIndY zp s
  | .jamD2 => Sys2Proof.Machine.execJamD2 s
  | .dcpIndY zp => Sys2Proof.Machine.execDcpIndY zp s
  | .nopZpXD4 zp => Sys2Proof.Machine.execNopZpXD4 zp s
  | .cmpZpX zp => Sys2Proof.Machine.execCmpZpX zp s
  | .decZpX zp => Sys2Proof.Machine.execDecZpX zp s
  | .dcpZpX zp => Sys2Proof.Machine.execDcpZpX zp s
  | .cld => Sys2Proof.Machine.execCld s
  | .cmpAbsY abs => Sys2Proof.Machine.execCmpAbsY abs s
  | .nopDA => Sys2Proof.Machine.execNopDA s
  | .dcpAbsY abs => Sys2Proof.Machine.execDcpAbsY abs s
  | .nopAbsXDC abs => Sys2Proof.Machine.execNopAbsXDC abs s
  | .cmpAbsX abs => Sys2Proof.Machine.execCmpAbsX abs s
  | .decAbsX abs => Sys2Proof.Machine.execDecAbsX abs s
  | .dcpAbsX abs => Sys2Proof.Machine.execDcpAbsX abs s
  | .cpxImm imm => Sys2Proof.Machine.execCpxImm imm s
  | .sbcIndX zp => Sys2Proof.Machine.execSbcIndX zp s
  | .nopImmE2 imm => Sys2Proof.Machine.execNopImmE2 imm s
  | .iscIndX zp => Sys2Proof.Machine.execIscIndX zp s
  | .cpxZp zp => Sys2Proof.Machine.execCpxZp zp s
  | .sbcZp zp => Sys2Proof.Machine.execSbcZp zp s
  | .incZp zp => Sys2Proof.Machine.execIncZp zp s
  | .iscZp zp => Sys2Proof.Machine.execIscZp zp s
  | .inx => Sys2Proof.Machine.execInx s
  | .sbcImm imm => Sys2Proof.Machine.execSbcImm imm s
  | .nop => Sys2Proof.Machine.execNop s
  | .usbcImm imm => Sys2Proof.Machine.execUsbcImm imm s
  | .cpxAbs abs => Sys2Proof.Machine.execCpxAbs abs s
  | .sbcAbs abs => Sys2Proof.Machine.execSbcAbs abs s
  | .incAbs abs => Sys2Proof.Machine.execIncAbs abs s
  | .iscAbs abs => Sys2Proof.Machine.execIscAbs abs s
  | .beq rel => Sys2Proof.Machine.execBeq rel s
  | .sbcIndY zp => Sys2Proof.Machine.execSbcIndY zp s
  | .jamF2 => Sys2Proof.Machine.execJamF2 s
  | .iscIndY zp => Sys2Proof.Machine.execIscIndY zp s
  | .nopZpXF4 zp => Sys2Proof.Machine.execNopZpXF4 zp s
  | .sbcZpX zp => Sys2Proof.Machine.execSbcZpX zp s
  | .incZpX zp => Sys2Proof.Machine.execIncZpX zp s
  | .iscZpX zp => Sys2Proof.Machine.execIscZpX zp s
  | .sed => Sys2Proof.Machine.execSed s
  | .sbcAbsY abs => Sys2Proof.Machine.execSbcAbsY abs s
  | .nopFA => Sys2Proof.Machine.execNopFA s
  | .iscAbsY abs => Sys2Proof.Machine.execIscAbsY abs s
  | .nopAbsXFC abs => Sys2Proof.Machine.execNopAbsXFC abs s
  | .sbcAbsX abs => Sys2Proof.Machine.execSbcAbsX abs s
  | .incAbsX abs => Sys2Proof.Machine.execIncAbsX abs s
  | .iscAbsX abs => Sys2Proof.Machine.execIscAbsX abs s

end Sys2Proof.Machine
end

