-- ==== Sys2Proof/Decode.lean ====
section
/-!
DEFINITION. The Instruction Table (R143, R147), the decoder (R144), total on every byte, and the encoder written from the same
table (R141, R142). The only thing a decoder can meet that is no instruction is a byte string that ends too early.
-/

namespace Sys2Proof

/-- Descriptors of opcodes 00 to 0F, the row 0x of R147. -/
def descriptorRow0 : List Descriptor :=
  [⟨0x00, .BRK, .implied, 7, false, .stackControl, false⟩,
   ⟨0x01, .ORA, .indirectX, 6, false, .read, false⟩,
   ⟨0x02, .JAM, .implied, 2, false, .jam, true⟩,
   ⟨0x03, .SLO, .indirectX, 8, false, .readModifyWrite, true⟩,
   ⟨0x04, .NOP, .zeroPage, 3, false, .read, true⟩,
   ⟨0x05, .ORA, .zeroPage, 3, false, .read, false⟩,
   ⟨0x06, .ASL, .zeroPage, 5, false, .readModifyWrite, false⟩,
   ⟨0x07, .SLO, .zeroPage, 5, false, .readModifyWrite, true⟩,
   ⟨0x08, .PHP, .implied, 3, false, .stackControl, false⟩,
   ⟨0x09, .ORA, .immediate, 2, false, .read, false⟩,
   ⟨0x0A, .ASL, .accumulator, 2, false, .internal, false⟩,
   ⟨0x0B, .ANC, .immediate, 2, false, .read, true⟩,
   ⟨0x0C, .NOP, .absolute, 4, false, .read, true⟩,
   ⟨0x0D, .ORA, .absolute, 4, false, .read, false⟩,
   ⟨0x0E, .ASL, .absolute, 6, false, .readModifyWrite, false⟩,
   ⟨0x0F, .SLO, .absolute, 6, false, .readModifyWrite, true⟩]

/-- Descriptors of opcodes 10 to 1F, the row 1x of R147. -/
def descriptorRow1 : List Descriptor :=
  [⟨0x10, .BPL, .relative, 2, false, .branch, false⟩,
   ⟨0x11, .ORA, .indirectY, 5, true, .read, false⟩,
   ⟨0x12, .JAM, .implied, 2, false, .jam, true⟩,
   ⟨0x13, .SLO, .indirectY, 8, false, .readModifyWrite, true⟩,
   ⟨0x14, .NOP, .zeroPageX, 4, false, .read, true⟩,
   ⟨0x15, .ORA, .zeroPageX, 4, false, .read, false⟩,
   ⟨0x16, .ASL, .zeroPageX, 6, false, .readModifyWrite, false⟩,
   ⟨0x17, .SLO, .zeroPageX, 6, false, .readModifyWrite, true⟩,
   ⟨0x18, .CLC, .implied, 2, false, .internal, false⟩,
   ⟨0x19, .ORA, .absoluteY, 4, true, .read, false⟩,
   ⟨0x1A, .NOP, .implied, 2, false, .internal, true⟩,
   ⟨0x1B, .SLO, .absoluteY, 7, false, .readModifyWrite, true⟩,
   ⟨0x1C, .NOP, .absoluteX, 4, true, .read, true⟩,
   ⟨0x1D, .ORA, .absoluteX, 4, true, .read, false⟩,
   ⟨0x1E, .ASL, .absoluteX, 7, false, .readModifyWrite, false⟩,
   ⟨0x1F, .SLO, .absoluteX, 7, false, .readModifyWrite, true⟩]

/-- Descriptors of opcodes 20 to 2F, the row 2x of R147. -/
def descriptorRow2 : List Descriptor :=
  [⟨0x20, .JSR, .absolute, 6, false, .stackControl, false⟩,
   ⟨0x21, .AND, .indirectX, 6, false, .read, false⟩,
   ⟨0x22, .JAM, .implied, 2, false, .jam, true⟩,
   ⟨0x23, .RLA, .indirectX, 8, false, .readModifyWrite, true⟩,
   ⟨0x24, .BIT, .zeroPage, 3, false, .read, false⟩,
   ⟨0x25, .AND, .zeroPage, 3, false, .read, false⟩,
   ⟨0x26, .ROL, .zeroPage, 5, false, .readModifyWrite, false⟩,
   ⟨0x27, .RLA, .zeroPage, 5, false, .readModifyWrite, true⟩,
   ⟨0x28, .PLP, .implied, 4, false, .stackControl, false⟩,
   ⟨0x29, .AND, .immediate, 2, false, .read, false⟩,
   ⟨0x2A, .ROL, .accumulator, 2, false, .internal, false⟩,
   ⟨0x2B, .ANC, .immediate, 2, false, .read, true⟩,
   ⟨0x2C, .BIT, .absolute, 4, false, .read, false⟩,
   ⟨0x2D, .AND, .absolute, 4, false, .read, false⟩,
   ⟨0x2E, .ROL, .absolute, 6, false, .readModifyWrite, false⟩,
   ⟨0x2F, .RLA, .absolute, 6, false, .readModifyWrite, true⟩]

/-- Descriptors of opcodes 30 to 3F, the row 3x of R147. -/
def descriptorRow3 : List Descriptor :=
  [⟨0x30, .BMI, .relative, 2, false, .branch, false⟩,
   ⟨0x31, .AND, .indirectY, 5, true, .read, false⟩,
   ⟨0x32, .JAM, .implied, 2, false, .jam, true⟩,
   ⟨0x33, .RLA, .indirectY, 8, false, .readModifyWrite, true⟩,
   ⟨0x34, .NOP, .zeroPageX, 4, false, .read, true⟩,
   ⟨0x35, .AND, .zeroPageX, 4, false, .read, false⟩,
   ⟨0x36, .ROL, .zeroPageX, 6, false, .readModifyWrite, false⟩,
   ⟨0x37, .RLA, .zeroPageX, 6, false, .readModifyWrite, true⟩,
   ⟨0x38, .SEC, .implied, 2, false, .internal, false⟩,
   ⟨0x39, .AND, .absoluteY, 4, true, .read, false⟩,
   ⟨0x3A, .NOP, .implied, 2, false, .internal, true⟩,
   ⟨0x3B, .RLA, .absoluteY, 7, false, .readModifyWrite, true⟩,
   ⟨0x3C, .NOP, .absoluteX, 4, true, .read, true⟩,
   ⟨0x3D, .AND, .absoluteX, 4, true, .read, false⟩,
   ⟨0x3E, .ROL, .absoluteX, 7, false, .readModifyWrite, false⟩,
   ⟨0x3F, .RLA, .absoluteX, 7, false, .readModifyWrite, true⟩]

/-- Descriptors of opcodes 40 to 4F, the row 4x of R147. -/
def descriptorRow4 : List Descriptor :=
  [⟨0x40, .RTI, .implied, 6, false, .stackControl, false⟩,
   ⟨0x41, .EOR, .indirectX, 6, false, .read, false⟩,
   ⟨0x42, .JAM, .implied, 2, false, .jam, true⟩,
   ⟨0x43, .SRE, .indirectX, 8, false, .readModifyWrite, true⟩,
   ⟨0x44, .NOP, .zeroPage, 3, false, .read, true⟩,
   ⟨0x45, .EOR, .zeroPage, 3, false, .read, false⟩,
   ⟨0x46, .LSR, .zeroPage, 5, false, .readModifyWrite, false⟩,
   ⟨0x47, .SRE, .zeroPage, 5, false, .readModifyWrite, true⟩,
   ⟨0x48, .PHA, .implied, 3, false, .stackControl, false⟩,
   ⟨0x49, .EOR, .immediate, 2, false, .read, false⟩,
   ⟨0x4A, .LSR, .accumulator, 2, false, .internal, false⟩,
   ⟨0x4B, .ALR, .immediate, 2, false, .read, true⟩,
   ⟨0x4C, .JMP, .absolute, 3, false, .stackControl, false⟩,
   ⟨0x4D, .EOR, .absolute, 4, false, .read, false⟩,
   ⟨0x4E, .LSR, .absolute, 6, false, .readModifyWrite, false⟩,
   ⟨0x4F, .SRE, .absolute, 6, false, .readModifyWrite, true⟩]

/-- Descriptors of opcodes 50 to 5F, the row 5x of R147. -/
def descriptorRow5 : List Descriptor :=
  [⟨0x50, .BVC, .relative, 2, false, .branch, false⟩,
   ⟨0x51, .EOR, .indirectY, 5, true, .read, false⟩,
   ⟨0x52, .JAM, .implied, 2, false, .jam, true⟩,
   ⟨0x53, .SRE, .indirectY, 8, false, .readModifyWrite, true⟩,
   ⟨0x54, .NOP, .zeroPageX, 4, false, .read, true⟩,
   ⟨0x55, .EOR, .zeroPageX, 4, false, .read, false⟩,
   ⟨0x56, .LSR, .zeroPageX, 6, false, .readModifyWrite, false⟩,
   ⟨0x57, .SRE, .zeroPageX, 6, false, .readModifyWrite, true⟩,
   ⟨0x58, .CLI, .implied, 2, false, .internal, false⟩,
   ⟨0x59, .EOR, .absoluteY, 4, true, .read, false⟩,
   ⟨0x5A, .NOP, .implied, 2, false, .internal, true⟩,
   ⟨0x5B, .SRE, .absoluteY, 7, false, .readModifyWrite, true⟩,
   ⟨0x5C, .NOP, .absoluteX, 4, true, .read, true⟩,
   ⟨0x5D, .EOR, .absoluteX, 4, true, .read, false⟩,
   ⟨0x5E, .LSR, .absoluteX, 7, false, .readModifyWrite, false⟩,
   ⟨0x5F, .SRE, .absoluteX, 7, false, .readModifyWrite, true⟩]

/-- Descriptors of opcodes 60 to 6F, the row 6x of R147. -/
def descriptorRow6 : List Descriptor :=
  [⟨0x60, .RTS, .implied, 6, false, .stackControl, false⟩,
   ⟨0x61, .ADC, .indirectX, 6, false, .read, false⟩,
   ⟨0x62, .JAM, .implied, 2, false, .jam, true⟩,
   ⟨0x63, .RRA, .indirectX, 8, false, .readModifyWrite, true⟩,
   ⟨0x64, .NOP, .zeroPage, 3, false, .read, true⟩,
   ⟨0x65, .ADC, .zeroPage, 3, false, .read, false⟩,
   ⟨0x66, .ROR, .zeroPage, 5, false, .readModifyWrite, false⟩,
   ⟨0x67, .RRA, .zeroPage, 5, false, .readModifyWrite, true⟩,
   ⟨0x68, .PLA, .implied, 4, false, .stackControl, false⟩,
   ⟨0x69, .ADC, .immediate, 2, false, .read, false⟩,
   ⟨0x6A, .ROR, .accumulator, 2, false, .internal, false⟩,
   ⟨0x6B, .ARR, .immediate, 2, false, .read, true⟩,
   ⟨0x6C, .JMP, .indirect, 5, false, .stackControl, false⟩,
   ⟨0x6D, .ADC, .absolute, 4, false, .read, false⟩,
   ⟨0x6E, .ROR, .absolute, 6, false, .readModifyWrite, false⟩,
   ⟨0x6F, .RRA, .absolute, 6, false, .readModifyWrite, true⟩]

/-- Descriptors of opcodes 70 to 7F, the row 7x of R147. -/
def descriptorRow7 : List Descriptor :=
  [⟨0x70, .BVS, .relative, 2, false, .branch, false⟩,
   ⟨0x71, .ADC, .indirectY, 5, true, .read, false⟩,
   ⟨0x72, .JAM, .implied, 2, false, .jam, true⟩,
   ⟨0x73, .RRA, .indirectY, 8, false, .readModifyWrite, true⟩,
   ⟨0x74, .NOP, .zeroPageX, 4, false, .read, true⟩,
   ⟨0x75, .ADC, .zeroPageX, 4, false, .read, false⟩,
   ⟨0x76, .ROR, .zeroPageX, 6, false, .readModifyWrite, false⟩,
   ⟨0x77, .RRA, .zeroPageX, 6, false, .readModifyWrite, true⟩,
   ⟨0x78, .SEI, .implied, 2, false, .internal, false⟩,
   ⟨0x79, .ADC, .absoluteY, 4, true, .read, false⟩,
   ⟨0x7A, .NOP, .implied, 2, false, .internal, true⟩,
   ⟨0x7B, .RRA, .absoluteY, 7, false, .readModifyWrite, true⟩,
   ⟨0x7C, .NOP, .absoluteX, 4, true, .read, true⟩,
   ⟨0x7D, .ADC, .absoluteX, 4, true, .read, false⟩,
   ⟨0x7E, .ROR, .absoluteX, 7, false, .readModifyWrite, false⟩,
   ⟨0x7F, .RRA, .absoluteX, 7, false, .readModifyWrite, true⟩]

/-- Descriptors of opcodes 80 to 8F, the row 8x of R147. -/
def descriptorRow8 : List Descriptor :=
  [⟨0x80, .NOP, .immediate, 2, false, .read, true⟩,
   ⟨0x81, .STA, .indirectX, 6, false, .write, false⟩,
   ⟨0x82, .NOP, .immediate, 2, false, .read, true⟩,
   ⟨0x83, .SAX, .indirectX, 6, false, .write, true⟩,
   ⟨0x84, .STY, .zeroPage, 3, false, .write, false⟩,
   ⟨0x85, .STA, .zeroPage, 3, false, .write, false⟩,
   ⟨0x86, .STX, .zeroPage, 3, false, .write, false⟩,
   ⟨0x87, .SAX, .zeroPage, 3, false, .write, true⟩,
   ⟨0x88, .DEY, .implied, 2, false, .internal, false⟩,
   ⟨0x89, .NOP, .immediate, 2, false, .read, true⟩,
   ⟨0x8A, .TXA, .implied, 2, false, .internal, false⟩,
   ⟨0x8B, .ANE, .immediate, 2, false, .read, true⟩,
   ⟨0x8C, .STY, .absolute, 4, false, .write, false⟩,
   ⟨0x8D, .STA, .absolute, 4, false, .write, false⟩,
   ⟨0x8E, .STX, .absolute, 4, false, .write, false⟩,
   ⟨0x8F, .SAX, .absolute, 4, false, .write, true⟩]

/-- Descriptors of opcodes 90 to 9F, the row 9x of R147. -/
def descriptorRow9 : List Descriptor :=
  [⟨0x90, .BCC, .relative, 2, false, .branch, false⟩,
   ⟨0x91, .STA, .indirectY, 6, false, .write, false⟩,
   ⟨0x92, .JAM, .implied, 2, false, .jam, true⟩,
   ⟨0x93, .SHA, .indirectY, 6, false, .write, true⟩,
   ⟨0x94, .STY, .zeroPageX, 4, false, .write, false⟩,
   ⟨0x95, .STA, .zeroPageX, 4, false, .write, false⟩,
   ⟨0x96, .STX, .zeroPageY, 4, false, .write, false⟩,
   ⟨0x97, .SAX, .zeroPageY, 4, false, .write, true⟩,
   ⟨0x98, .TYA, .implied, 2, false, .internal, false⟩,
   ⟨0x99, .STA, .absoluteY, 5, false, .write, false⟩,
   ⟨0x9A, .TXS, .implied, 2, false, .internal, false⟩,
   ⟨0x9B, .TAS, .absoluteY, 5, false, .write, true⟩,
   ⟨0x9C, .SHY, .absoluteX, 5, false, .write, true⟩,
   ⟨0x9D, .STA, .absoluteX, 5, false, .write, false⟩,
   ⟨0x9E, .SHX, .absoluteY, 5, false, .write, true⟩,
   ⟨0x9F, .SHA, .absoluteY, 5, false, .write, true⟩]

/-- Descriptors of opcodes A0 to AF, the row Ax of R147. -/
def descriptorRowA : List Descriptor :=
  [⟨0xA0, .LDY, .immediate, 2, false, .read, false⟩,
   ⟨0xA1, .LDA, .indirectX, 6, false, .read, false⟩,
   ⟨0xA2, .LDX, .immediate, 2, false, .read, false⟩,
   ⟨0xA3, .LAX, .indirectX, 6, false, .read, true⟩,
   ⟨0xA4, .LDY, .zeroPage, 3, false, .read, false⟩,
   ⟨0xA5, .LDA, .zeroPage, 3, false, .read, false⟩,
   ⟨0xA6, .LDX, .zeroPage, 3, false, .read, false⟩,
   ⟨0xA7, .LAX, .zeroPage, 3, false, .read, true⟩,
   ⟨0xA8, .TAY, .implied, 2, false, .internal, false⟩,
   ⟨0xA9, .LDA, .immediate, 2, false, .read, false⟩,
   ⟨0xAA, .TAX, .implied, 2, false, .internal, false⟩,
   ⟨0xAB, .LXA, .immediate, 2, false, .read, true⟩,
   ⟨0xAC, .LDY, .absolute, 4, false, .read, false⟩,
   ⟨0xAD, .LDA, .absolute, 4, false, .read, false⟩,
   ⟨0xAE, .LDX, .absolute, 4, false, .read, false⟩,
   ⟨0xAF, .LAX, .absolute, 4, false, .read, true⟩]

/-- Descriptors of opcodes B0 to BF, the row Bx of R147. -/
def descriptorRowB : List Descriptor :=
  [⟨0xB0, .BCS, .relative, 2, false, .branch, false⟩,
   ⟨0xB1, .LDA, .indirectY, 5, true, .read, false⟩,
   ⟨0xB2, .JAM, .implied, 2, false, .jam, true⟩,
   ⟨0xB3, .LAX, .indirectY, 5, true, .read, true⟩,
   ⟨0xB4, .LDY, .zeroPageX, 4, false, .read, false⟩,
   ⟨0xB5, .LDA, .zeroPageX, 4, false, .read, false⟩,
   ⟨0xB6, .LDX, .zeroPageY, 4, false, .read, false⟩,
   ⟨0xB7, .LAX, .zeroPageY, 4, false, .read, true⟩,
   ⟨0xB8, .CLV, .implied, 2, false, .internal, false⟩,
   ⟨0xB9, .LDA, .absoluteY, 4, true, .read, false⟩,
   ⟨0xBA, .TSX, .implied, 2, false, .internal, false⟩,
   ⟨0xBB, .LAS, .absoluteY, 4, true, .read, true⟩,
   ⟨0xBC, .LDY, .absoluteX, 4, true, .read, false⟩,
   ⟨0xBD, .LDA, .absoluteX, 4, true, .read, false⟩,
   ⟨0xBE, .LDX, .absoluteY, 4, true, .read, false⟩,
   ⟨0xBF, .LAX, .absoluteY, 4, true, .read, true⟩]

/-- Descriptors of opcodes C0 to CF, the row Cx of R147. -/
def descriptorRowC : List Descriptor :=
  [⟨0xC0, .CPY, .immediate, 2, false, .read, false⟩,
   ⟨0xC1, .CMP, .indirectX, 6, false, .read, false⟩,
   ⟨0xC2, .NOP, .immediate, 2, false, .read, true⟩,
   ⟨0xC3, .DCP, .indirectX, 8, false, .readModifyWrite, true⟩,
   ⟨0xC4, .CPY, .zeroPage, 3, false, .read, false⟩,
   ⟨0xC5, .CMP, .zeroPage, 3, false, .read, false⟩,
   ⟨0xC6, .DEC, .zeroPage, 5, false, .readModifyWrite, false⟩,
   ⟨0xC7, .DCP, .zeroPage, 5, false, .readModifyWrite, true⟩,
   ⟨0xC8, .INY, .implied, 2, false, .internal, false⟩,
   ⟨0xC9, .CMP, .immediate, 2, false, .read, false⟩,
   ⟨0xCA, .DEX, .implied, 2, false, .internal, false⟩,
   ⟨0xCB, .SBX, .immediate, 2, false, .read, true⟩,
   ⟨0xCC, .CPY, .absolute, 4, false, .read, false⟩,
   ⟨0xCD, .CMP, .absolute, 4, false, .read, false⟩,
   ⟨0xCE, .DEC, .absolute, 6, false, .readModifyWrite, false⟩,
   ⟨0xCF, .DCP, .absolute, 6, false, .readModifyWrite, true⟩]

/-- Descriptors of opcodes D0 to DF, the row Dx of R147. -/
def descriptorRowD : List Descriptor :=
  [⟨0xD0, .BNE, .relative, 2, false, .branch, false⟩,
   ⟨0xD1, .CMP, .indirectY, 5, true, .read, false⟩,
   ⟨0xD2, .JAM, .implied, 2, false, .jam, true⟩,
   ⟨0xD3, .DCP, .indirectY, 8, false, .readModifyWrite, true⟩,
   ⟨0xD4, .NOP, .zeroPageX, 4, false, .read, true⟩,
   ⟨0xD5, .CMP, .zeroPageX, 4, false, .read, false⟩,
   ⟨0xD6, .DEC, .zeroPageX, 6, false, .readModifyWrite, false⟩,
   ⟨0xD7, .DCP, .zeroPageX, 6, false, .readModifyWrite, true⟩,
   ⟨0xD8, .CLD, .implied, 2, false, .internal, false⟩,
   ⟨0xD9, .CMP, .absoluteY, 4, true, .read, false⟩,
   ⟨0xDA, .NOP, .implied, 2, false, .internal, true⟩,
   ⟨0xDB, .DCP, .absoluteY, 7, false, .readModifyWrite, true⟩,
   ⟨0xDC, .NOP, .absoluteX, 4, true, .read, true⟩,
   ⟨0xDD, .CMP, .absoluteX, 4, true, .read, false⟩,
   ⟨0xDE, .DEC, .absoluteX, 7, false, .readModifyWrite, false⟩,
   ⟨0xDF, .DCP, .absoluteX, 7, false, .readModifyWrite, true⟩]

/-- Descriptors of opcodes E0 to EF, the row Ex of R147. -/
def descriptorRowE : List Descriptor :=
  [⟨0xE0, .CPX, .immediate, 2, false, .read, false⟩,
   ⟨0xE1, .SBC, .indirectX, 6, false, .read, false⟩,
   ⟨0xE2, .NOP, .immediate, 2, false, .read, true⟩,
   ⟨0xE3, .ISC, .indirectX, 8, false, .readModifyWrite, true⟩,
   ⟨0xE4, .CPX, .zeroPage, 3, false, .read, false⟩,
   ⟨0xE5, .SBC, .zeroPage, 3, false, .read, false⟩,
   ⟨0xE6, .INC, .zeroPage, 5, false, .readModifyWrite, false⟩,
   ⟨0xE7, .ISC, .zeroPage, 5, false, .readModifyWrite, true⟩,
   ⟨0xE8, .INX, .implied, 2, false, .internal, false⟩,
   ⟨0xE9, .SBC, .immediate, 2, false, .read, false⟩,
   ⟨0xEA, .NOP, .implied, 2, false, .internal, false⟩,
   ⟨0xEB, .USBC, .immediate, 2, false, .read, true⟩,
   ⟨0xEC, .CPX, .absolute, 4, false, .read, false⟩,
   ⟨0xED, .SBC, .absolute, 4, false, .read, false⟩,
   ⟨0xEE, .INC, .absolute, 6, false, .readModifyWrite, false⟩,
   ⟨0xEF, .ISC, .absolute, 6, false, .readModifyWrite, true⟩]

/-- Descriptors of opcodes F0 to FF, the row Fx of R147. -/
def descriptorRowF : List Descriptor :=
  [⟨0xF0, .BEQ, .relative, 2, false, .branch, false⟩,
   ⟨0xF1, .SBC, .indirectY, 5, true, .read, false⟩,
   ⟨0xF2, .JAM, .implied, 2, false, .jam, true⟩,
   ⟨0xF3, .ISC, .indirectY, 8, false, .readModifyWrite, true⟩,
   ⟨0xF4, .NOP, .zeroPageX, 4, false, .read, true⟩,
   ⟨0xF5, .SBC, .zeroPageX, 4, false, .read, false⟩,
   ⟨0xF6, .INC, .zeroPageX, 6, false, .readModifyWrite, false⟩,
   ⟨0xF7, .ISC, .zeroPageX, 6, false, .readModifyWrite, true⟩,
   ⟨0xF8, .SED, .implied, 2, false, .internal, false⟩,
   ⟨0xF9, .SBC, .absoluteY, 4, true, .read, false⟩,
   ⟨0xFA, .NOP, .implied, 2, false, .internal, true⟩,
   ⟨0xFB, .ISC, .absoluteY, 7, false, .readModifyWrite, true⟩,
   ⟨0xFC, .NOP, .absoluteX, 4, true, .read, true⟩,
   ⟨0xFD, .SBC, .absoluteX, 4, true, .read, false⟩,
   ⟨0xFE, .INC, .absoluteX, 7, false, .readModifyWrite, false⟩,
   ⟨0xFF, .ISC, .absoluteX, 7, false, .readModifyWrite, true⟩]

/-- Row `row` of R147: the descriptors of the opcodes `row`0 to `row`F. -/
def descriptorRow (row : Nat) : List Descriptor :=
  match row with
  | 0 => descriptorRow0
  | 1 => descriptorRow1
  | 2 => descriptorRow2
  | 3 => descriptorRow3
  | 4 => descriptorRow4
  | 5 => descriptorRow5
  | 6 => descriptorRow6
  | 7 => descriptorRow7
  | 8 => descriptorRow8
  | 9 => descriptorRow9
  | 10 => descriptorRowA
  | 11 => descriptorRowB
  | 12 => descriptorRowC
  | 13 => descriptorRowD
  | 14 => descriptorRowE
  | _ => descriptorRowF

/-- Decode(IR) of R144: the descriptor of an opcode byte. Every row has an entry for every column, so the default is never used. -/
def descriptor (opcode : Byte) : Descriptor :=
  (descriptorRow (opcode.toNat / 16)).getD (opcode.toNat % 16) ⟨opcode, .JAM, .implied, 2, false, .jam, true⟩

/-- The instruction table: 256 descriptors, in the order of their opcodes (R147). -/
def descriptorTable : List Descriptor := (List.range 256).map (fun k => descriptor (BitVec.ofNat 8 k))

/-- The instructions of row 0x of R147 by column, with the operand bytes that follow the opcode. -/
def decodeRow0 (col : Nat) (b1 b2 : Byte) : Instr :=
  match col with
  | 0 => .brk
  | 1 => .oraIndX b1
  | 2 => .jam02
  | 3 => .sloIndX b1
  | 4 => .nopZp04 b1
  | 5 => .oraZp b1
  | 6 => .aslZp b1
  | 7 => .sloZp b1
  | 8 => .php
  | 9 => .oraImm b1
  | 10 => .aslAcc
  | 11 => .ancImm0B b1
  | 12 => .nopAbs (pair b2 b1)
  | 13 => .oraAbs (pair b2 b1)
  | 14 => .aslAbs (pair b2 b1)
  | _ => .sloAbs (pair b2 b1)

/-- The instructions of row 1x of R147 by column, with the operand bytes that follow the opcode. -/
def decodeRow1 (col : Nat) (b1 b2 : Byte) : Instr :=
  match col with
  | 0 => .bpl b1
  | 1 => .oraIndY b1
  | 2 => .jam12
  | 3 => .sloIndY b1
  | 4 => .nopZpX14 b1
  | 5 => .oraZpX b1
  | 6 => .aslZpX b1
  | 7 => .sloZpX b1
  | 8 => .clc
  | 9 => .oraAbsY (pair b2 b1)
  | 10 => .nop1A
  | 11 => .sloAbsY (pair b2 b1)
  | 12 => .nopAbsX1C (pair b2 b1)
  | 13 => .oraAbsX (pair b2 b1)
  | 14 => .aslAbsX (pair b2 b1)
  | _ => .sloAbsX (pair b2 b1)

/-- The instructions of row 2x of R147 by column, with the operand bytes that follow the opcode. -/
def decodeRow2 (col : Nat) (b1 b2 : Byte) : Instr :=
  match col with
  | 0 => .jsr (pair b2 b1)
  | 1 => .andIndX b1
  | 2 => .jam22
  | 3 => .rlaIndX b1
  | 4 => .bitZp b1
  | 5 => .andZp b1
  | 6 => .rolZp b1
  | 7 => .rlaZp b1
  | 8 => .plp
  | 9 => .andImm b1
  | 10 => .rolAcc
  | 11 => .ancImm2B b1
  | 12 => .bitAbs (pair b2 b1)
  | 13 => .andAbs (pair b2 b1)
  | 14 => .rolAbs (pair b2 b1)
  | _ => .rlaAbs (pair b2 b1)

/-- The instructions of row 3x of R147 by column, with the operand bytes that follow the opcode. -/
def decodeRow3 (col : Nat) (b1 b2 : Byte) : Instr :=
  match col with
  | 0 => .bmi b1
  | 1 => .andIndY b1
  | 2 => .jam32
  | 3 => .rlaIndY b1
  | 4 => .nopZpX34 b1
  | 5 => .andZpX b1
  | 6 => .rolZpX b1
  | 7 => .rlaZpX b1
  | 8 => .sec
  | 9 => .andAbsY (pair b2 b1)
  | 10 => .nop3A
  | 11 => .rlaAbsY (pair b2 b1)
  | 12 => .nopAbsX3C (pair b2 b1)
  | 13 => .andAbsX (pair b2 b1)
  | 14 => .rolAbsX (pair b2 b1)
  | _ => .rlaAbsX (pair b2 b1)

/-- The instructions of row 4x of R147 by column, with the operand bytes that follow the opcode. -/
def decodeRow4 (col : Nat) (b1 b2 : Byte) : Instr :=
  match col with
  | 0 => .rti
  | 1 => .eorIndX b1
  | 2 => .jam42
  | 3 => .sreIndX b1
  | 4 => .nopZp44 b1
  | 5 => .eorZp b1
  | 6 => .lsrZp b1
  | 7 => .sreZp b1
  | 8 => .pha
  | 9 => .eorImm b1
  | 10 => .lsrAcc
  | 11 => .alrImm b1
  | 12 => .jmpAbs (pair b2 b1)
  | 13 => .eorAbs (pair b2 b1)
  | 14 => .lsrAbs (pair b2 b1)
  | _ => .sreAbs (pair b2 b1)

/-- The instructions of row 5x of R147 by column, with the operand bytes that follow the opcode. -/
def decodeRow5 (col : Nat) (b1 b2 : Byte) : Instr :=
  match col with
  | 0 => .bvc b1
  | 1 => .eorIndY b1
  | 2 => .jam52
  | 3 => .sreIndY b1
  | 4 => .nopZpX54 b1
  | 5 => .eorZpX b1
  | 6 => .lsrZpX b1
  | 7 => .sreZpX b1
  | 8 => .cli
  | 9 => .eorAbsY (pair b2 b1)
  | 10 => .nop5A
  | 11 => .sreAbsY (pair b2 b1)
  | 12 => .nopAbsX5C (pair b2 b1)
  | 13 => .eorAbsX (pair b2 b1)
  | 14 => .lsrAbsX (pair b2 b1)
  | _ => .sreAbsX (pair b2 b1)

/-- The instructions of row 6x of R147 by column, with the operand bytes that follow the opcode. -/
def decodeRow6 (col : Nat) (b1 b2 : Byte) : Instr :=
  match col with
  | 0 => .rts
  | 1 => .adcIndX b1
  | 2 => .jam62
  | 3 => .rraIndX b1
  | 4 => .nopZp64 b1
  | 5 => .adcZp b1
  | 6 => .rorZp b1
  | 7 => .rraZp b1
  | 8 => .pla
  | 9 => .adcImm b1
  | 10 => .rorAcc
  | 11 => .arrImm b1
  | 12 => .jmpInd (pair b2 b1)
  | 13 => .adcAbs (pair b2 b1)
  | 14 => .rorAbs (pair b2 b1)
  | _ => .rraAbs (pair b2 b1)

/-- The instructions of row 7x of R147 by column, with the operand bytes that follow the opcode. -/
def decodeRow7 (col : Nat) (b1 b2 : Byte) : Instr :=
  match col with
  | 0 => .bvs b1
  | 1 => .adcIndY b1
  | 2 => .jam72
  | 3 => .rraIndY b1
  | 4 => .nopZpX74 b1
  | 5 => .adcZpX b1
  | 6 => .rorZpX b1
  | 7 => .rraZpX b1
  | 8 => .sei
  | 9 => .adcAbsY (pair b2 b1)
  | 10 => .nop7A
  | 11 => .rraAbsY (pair b2 b1)
  | 12 => .nopAbsX7C (pair b2 b1)
  | 13 => .adcAbsX (pair b2 b1)
  | 14 => .rorAbsX (pair b2 b1)
  | _ => .rraAbsX (pair b2 b1)

/-- The instructions of row 8x of R147 by column, with the operand bytes that follow the opcode. -/
def decodeRow8 (col : Nat) (b1 b2 : Byte) : Instr :=
  match col with
  | 0 => .nopImm80 b1
  | 1 => .staIndX b1
  | 2 => .nopImm82 b1
  | 3 => .saxIndX b1
  | 4 => .styZp b1
  | 5 => .staZp b1
  | 6 => .stxZp b1
  | 7 => .saxZp b1
  | 8 => .dey
  | 9 => .nopImm89 b1
  | 10 => .txa
  | 11 => .aneImm b1
  | 12 => .styAbs (pair b2 b1)
  | 13 => .staAbs (pair b2 b1)
  | 14 => .stxAbs (pair b2 b1)
  | _ => .saxAbs (pair b2 b1)

/-- The instructions of row 9x of R147 by column, with the operand bytes that follow the opcode. -/
def decodeRow9 (col : Nat) (b1 b2 : Byte) : Instr :=
  match col with
  | 0 => .bcc b1
  | 1 => .staIndY b1
  | 2 => .jam92
  | 3 => .shaIndY b1
  | 4 => .styZpX b1
  | 5 => .staZpX b1
  | 6 => .stxZpY b1
  | 7 => .saxZpY b1
  | 8 => .tya
  | 9 => .staAbsY (pair b2 b1)
  | 10 => .txs
  | 11 => .tasAbsY (pair b2 b1)
  | 12 => .shyAbsX (pair b2 b1)
  | 13 => .staAbsX (pair b2 b1)
  | 14 => .shxAbsY (pair b2 b1)
  | _ => .shaAbsY (pair b2 b1)

/-- The instructions of row Ax of R147 by column, with the operand bytes that follow the opcode. -/
def decodeRowA (col : Nat) (b1 b2 : Byte) : Instr :=
  match col with
  | 0 => .ldyImm b1
  | 1 => .ldaIndX b1
  | 2 => .ldxImm b1
  | 3 => .laxIndX b1
  | 4 => .ldyZp b1
  | 5 => .ldaZp b1
  | 6 => .ldxZp b1
  | 7 => .laxZp b1
  | 8 => .tay
  | 9 => .ldaImm b1
  | 10 => .tax
  | 11 => .lxaImm b1
  | 12 => .ldyAbs (pair b2 b1)
  | 13 => .ldaAbs (pair b2 b1)
  | 14 => .ldxAbs (pair b2 b1)
  | _ => .laxAbs (pair b2 b1)

/-- The instructions of row Bx of R147 by column, with the operand bytes that follow the opcode. -/
def decodeRowB (col : Nat) (b1 b2 : Byte) : Instr :=
  match col with
  | 0 => .bcs b1
  | 1 => .ldaIndY b1
  | 2 => .jamB2
  | 3 => .laxIndY b1
  | 4 => .ldyZpX b1
  | 5 => .ldaZpX b1
  | 6 => .ldxZpY b1
  | 7 => .laxZpY b1
  | 8 => .clv
  | 9 => .ldaAbsY (pair b2 b1)
  | 10 => .tsx
  | 11 => .lasAbsY (pair b2 b1)
  | 12 => .ldyAbsX (pair b2 b1)
  | 13 => .ldaAbsX (pair b2 b1)
  | 14 => .ldxAbsY (pair b2 b1)
  | _ => .laxAbsY (pair b2 b1)

/-- The instructions of row Cx of R147 by column, with the operand bytes that follow the opcode. -/
def decodeRowC (col : Nat) (b1 b2 : Byte) : Instr :=
  match col with
  | 0 => .cpyImm b1
  | 1 => .cmpIndX b1
  | 2 => .nopImmC2 b1
  | 3 => .dcpIndX b1
  | 4 => .cpyZp b1
  | 5 => .cmpZp b1
  | 6 => .decZp b1
  | 7 => .dcpZp b1
  | 8 => .iny
  | 9 => .cmpImm b1
  | 10 => .dex
  | 11 => .sbxImm b1
  | 12 => .cpyAbs (pair b2 b1)
  | 13 => .cmpAbs (pair b2 b1)
  | 14 => .decAbs (pair b2 b1)
  | _ => .dcpAbs (pair b2 b1)

/-- The instructions of row Dx of R147 by column, with the operand bytes that follow the opcode. -/
def decodeRowD (col : Nat) (b1 b2 : Byte) : Instr :=
  match col with
  | 0 => .bne b1
  | 1 => .cmpIndY b1
  | 2 => .jamD2
  | 3 => .dcpIndY b1
  | 4 => .nopZpXD4 b1
  | 5 => .cmpZpX b1
  | 6 => .decZpX b1
  | 7 => .dcpZpX b1
  | 8 => .cld
  | 9 => .cmpAbsY (pair b2 b1)
  | 10 => .nopDA
  | 11 => .dcpAbsY (pair b2 b1)
  | 12 => .nopAbsXDC (pair b2 b1)
  | 13 => .cmpAbsX (pair b2 b1)
  | 14 => .decAbsX (pair b2 b1)
  | _ => .dcpAbsX (pair b2 b1)

/-- The instructions of row Ex of R147 by column, with the operand bytes that follow the opcode. -/
def decodeRowE (col : Nat) (b1 b2 : Byte) : Instr :=
  match col with
  | 0 => .cpxImm b1
  | 1 => .sbcIndX b1
  | 2 => .nopImmE2 b1
  | 3 => .iscIndX b1
  | 4 => .cpxZp b1
  | 5 => .sbcZp b1
  | 6 => .incZp b1
  | 7 => .iscZp b1
  | 8 => .inx
  | 9 => .sbcImm b1
  | 10 => .nop
  | 11 => .usbcImm b1
  | 12 => .cpxAbs (pair b2 b1)
  | 13 => .sbcAbs (pair b2 b1)
  | 14 => .incAbs (pair b2 b1)
  | _ => .iscAbs (pair b2 b1)

/-- The instructions of row Fx of R147 by column, with the operand bytes that follow the opcode. -/
def decodeRowF (col : Nat) (b1 b2 : Byte) : Instr :=
  match col with
  | 0 => .beq b1
  | 1 => .sbcIndY b1
  | 2 => .jamF2
  | 3 => .iscIndY b1
  | 4 => .nopZpXF4 b1
  | 5 => .sbcZpX b1
  | 6 => .incZpX b1
  | 7 => .iscZpX b1
  | 8 => .sed
  | 9 => .sbcAbsY (pair b2 b1)
  | 10 => .nopFA
  | 11 => .iscAbsY (pair b2 b1)
  | 12 => .nopAbsXFC (pair b2 b1)
  | 13 => .sbcAbsX (pair b2 b1)
  | 14 => .incAbsX (pair b2 b1)
  | _ => .iscAbsX (pair b2 b1)

/-- The instruction of an opcode byte and the two bytes after it, of which the mode takes none, one or both (R142, R144, R148). -/
def decodeOp (opcode b1 b2 : Byte) : Instr :=
  match opcode.toNat / 16 with
  | 0 => decodeRow0 (opcode.toNat % 16) b1 b2
  | 1 => decodeRow1 (opcode.toNat % 16) b1 b2
  | 2 => decodeRow2 (opcode.toNat % 16) b1 b2
  | 3 => decodeRow3 (opcode.toNat % 16) b1 b2
  | 4 => decodeRow4 (opcode.toNat % 16) b1 b2
  | 5 => decodeRow5 (opcode.toNat % 16) b1 b2
  | 6 => decodeRow6 (opcode.toNat % 16) b1 b2
  | 7 => decodeRow7 (opcode.toNat % 16) b1 b2
  | 8 => decodeRow8 (opcode.toNat % 16) b1 b2
  | 9 => decodeRow9 (opcode.toNat % 16) b1 b2
  | 10 => decodeRowA (opcode.toNat % 16) b1 b2
  | 11 => decodeRowB (opcode.toNat % 16) b1 b2
  | 12 => decodeRowC (opcode.toNat % 16) b1 b2
  | 13 => decodeRowD (opcode.toNat % 16) b1 b2
  | 14 => decodeRowE (opcode.toNat % 16) b1 b2
  | _ => decodeRowF (opcode.toNat % 16) b1 b2

/-- Why a byte string is no instruction: `missing` more bytes are needed. There is no invalid encoding (R144). -/
inductive DecodeError where
  | truncated (missing : Nat)
deriving DecidableEq, Repr

/-- The instruction at the front of a byte string and the rest of it. -/
def decode : List Byte → Except DecodeError (Instr × List Byte)
  | [] => .error (.truncated 1)
  | opcode :: rest =>
    match (descriptor opcode).mode.operandBytes, rest with
    | 0, rest => .ok (decodeOp opcode 0 0, rest)
    | 1, b1 :: rest => .ok (decodeOp opcode b1 0, rest)
    | 1, [] => .error (.truncated 1)
    | _, b1 :: b2 :: rest => .ok (decodeOp opcode b1 b2, rest)
    | _, [_] => .error (.truncated 1)
    | _, [] => .error (.truncated 2)

/-- The bytes of an instruction: the opcode, then the operand, low byte first (R141, R142). -/
def encode : Instr → List Byte
  | .brk => [0x00]
  | .oraIndX b => [0x01, b]
  | .jam02 => [0x02]
  | .sloIndX b => [0x03, b]
  | .nopZp04 b => [0x04, b]
  | .oraZp b => [0x05, b]
  | .aslZp b => [0x06, b]
  | .sloZp b => [0x07, b]
  | .php => [0x08]
  | .oraImm b => [0x09, b]
  | .aslAcc => [0x0A]
  | .ancImm0B b => [0x0B, b]
  | .nopAbs w => [0x0C, lo w, hi w]
  | .oraAbs w => [0x0D, lo w, hi w]
  | .aslAbs w => [0x0E, lo w, hi w]
  | .sloAbs w => [0x0F, lo w, hi w]
  | .bpl b => [0x10, b]
  | .oraIndY b => [0x11, b]
  | .jam12 => [0x12]
  | .sloIndY b => [0x13, b]
  | .nopZpX14 b => [0x14, b]
  | .oraZpX b => [0x15, b]
  | .aslZpX b => [0x16, b]
  | .sloZpX b => [0x17, b]
  | .clc => [0x18]
  | .oraAbsY w => [0x19, lo w, hi w]
  | .nop1A => [0x1A]
  | .sloAbsY w => [0x1B, lo w, hi w]
  | .nopAbsX1C w => [0x1C, lo w, hi w]
  | .oraAbsX w => [0x1D, lo w, hi w]
  | .aslAbsX w => [0x1E, lo w, hi w]
  | .sloAbsX w => [0x1F, lo w, hi w]
  | .jsr w => [0x20, lo w, hi w]
  | .andIndX b => [0x21, b]
  | .jam22 => [0x22]
  | .rlaIndX b => [0x23, b]
  | .bitZp b => [0x24, b]
  | .andZp b => [0x25, b]
  | .rolZp b => [0x26, b]
  | .rlaZp b => [0x27, b]
  | .plp => [0x28]
  | .andImm b => [0x29, b]
  | .rolAcc => [0x2A]
  | .ancImm2B b => [0x2B, b]
  | .bitAbs w => [0x2C, lo w, hi w]
  | .andAbs w => [0x2D, lo w, hi w]
  | .rolAbs w => [0x2E, lo w, hi w]
  | .rlaAbs w => [0x2F, lo w, hi w]
  | .bmi b => [0x30, b]
  | .andIndY b => [0x31, b]
  | .jam32 => [0x32]
  | .rlaIndY b => [0x33, b]
  | .nopZpX34 b => [0x34, b]
  | .andZpX b => [0x35, b]
  | .rolZpX b => [0x36, b]
  | .rlaZpX b => [0x37, b]
  | .sec => [0x38]
  | .andAbsY w => [0x39, lo w, hi w]
  | .nop3A => [0x3A]
  | .rlaAbsY w => [0x3B, lo w, hi w]
  | .nopAbsX3C w => [0x3C, lo w, hi w]
  | .andAbsX w => [0x3D, lo w, hi w]
  | .rolAbsX w => [0x3E, lo w, hi w]
  | .rlaAbsX w => [0x3F, lo w, hi w]
  | .rti => [0x40]
  | .eorIndX b => [0x41, b]
  | .jam42 => [0x42]
  | .sreIndX b => [0x43, b]
  | .nopZp44 b => [0x44, b]
  | .eorZp b => [0x45, b]
  | .lsrZp b => [0x46, b]
  | .sreZp b => [0x47, b]
  | .pha => [0x48]
  | .eorImm b => [0x49, b]
  | .lsrAcc => [0x4A]
  | .alrImm b => [0x4B, b]
  | .jmpAbs w => [0x4C, lo w, hi w]
  | .eorAbs w => [0x4D, lo w, hi w]
  | .lsrAbs w => [0x4E, lo w, hi w]
  | .sreAbs w => [0x4F, lo w, hi w]
  | .bvc b => [0x50, b]
  | .eorIndY b => [0x51, b]
  | .jam52 => [0x52]
  | .sreIndY b => [0x53, b]
  | .nopZpX54 b => [0x54, b]
  | .eorZpX b => [0x55, b]
  | .lsrZpX b => [0x56, b]
  | .sreZpX b => [0x57, b]
  | .cli => [0x58]
  | .eorAbsY w => [0x59, lo w, hi w]
  | .nop5A => [0x5A]
  | .sreAbsY w => [0x5B, lo w, hi w]
  | .nopAbsX5C w => [0x5C, lo w, hi w]
  | .eorAbsX w => [0x5D, lo w, hi w]
  | .lsrAbsX w => [0x5E, lo w, hi w]
  | .sreAbsX w => [0x5F, lo w, hi w]
  | .rts => [0x60]
  | .adcIndX b => [0x61, b]
  | .jam62 => [0x62]
  | .rraIndX b => [0x63, b]
  | .nopZp64 b => [0x64, b]
  | .adcZp b => [0x65, b]
  | .rorZp b => [0x66, b]
  | .rraZp b => [0x67, b]
  | .pla => [0x68]
  | .adcImm b => [0x69, b]
  | .rorAcc => [0x6A]
  | .arrImm b => [0x6B, b]
  | .jmpInd w => [0x6C, lo w, hi w]
  | .adcAbs w => [0x6D, lo w, hi w]
  | .rorAbs w => [0x6E, lo w, hi w]
  | .rraAbs w => [0x6F, lo w, hi w]
  | .bvs b => [0x70, b]
  | .adcIndY b => [0x71, b]
  | .jam72 => [0x72]
  | .rraIndY b => [0x73, b]
  | .nopZpX74 b => [0x74, b]
  | .adcZpX b => [0x75, b]
  | .rorZpX b => [0x76, b]
  | .rraZpX b => [0x77, b]
  | .sei => [0x78]
  | .adcAbsY w => [0x79, lo w, hi w]
  | .nop7A => [0x7A]
  | .rraAbsY w => [0x7B, lo w, hi w]
  | .nopAbsX7C w => [0x7C, lo w, hi w]
  | .adcAbsX w => [0x7D, lo w, hi w]
  | .rorAbsX w => [0x7E, lo w, hi w]
  | .rraAbsX w => [0x7F, lo w, hi w]
  | .nopImm80 b => [0x80, b]
  | .staIndX b => [0x81, b]
  | .nopImm82 b => [0x82, b]
  | .saxIndX b => [0x83, b]
  | .styZp b => [0x84, b]
  | .staZp b => [0x85, b]
  | .stxZp b => [0x86, b]
  | .saxZp b => [0x87, b]
  | .dey => [0x88]
  | .nopImm89 b => [0x89, b]
  | .txa => [0x8A]
  | .aneImm b => [0x8B, b]
  | .styAbs w => [0x8C, lo w, hi w]
  | .staAbs w => [0x8D, lo w, hi w]
  | .stxAbs w => [0x8E, lo w, hi w]
  | .saxAbs w => [0x8F, lo w, hi w]
  | .bcc b => [0x90, b]
  | .staIndY b => [0x91, b]
  | .jam92 => [0x92]
  | .shaIndY b => [0x93, b]
  | .styZpX b => [0x94, b]
  | .staZpX b => [0x95, b]
  | .stxZpY b => [0x96, b]
  | .saxZpY b => [0x97, b]
  | .tya => [0x98]
  | .staAbsY w => [0x99, lo w, hi w]
  | .txs => [0x9A]
  | .tasAbsY w => [0x9B, lo w, hi w]
  | .shyAbsX w => [0x9C, lo w, hi w]
  | .staAbsX w => [0x9D, lo w, hi w]
  | .shxAbsY w => [0x9E, lo w, hi w]
  | .shaAbsY w => [0x9F, lo w, hi w]
  | .ldyImm b => [0xA0, b]
  | .ldaIndX b => [0xA1, b]
  | .ldxImm b => [0xA2, b]
  | .laxIndX b => [0xA3, b]
  | .ldyZp b => [0xA4, b]
  | .ldaZp b => [0xA5, b]
  | .ldxZp b => [0xA6, b]
  | .laxZp b => [0xA7, b]
  | .tay => [0xA8]
  | .ldaImm b => [0xA9, b]
  | .tax => [0xAA]
  | .lxaImm b => [0xAB, b]
  | .ldyAbs w => [0xAC, lo w, hi w]
  | .ldaAbs w => [0xAD, lo w, hi w]
  | .ldxAbs w => [0xAE, lo w, hi w]
  | .laxAbs w => [0xAF, lo w, hi w]
  | .bcs b => [0xB0, b]
  | .ldaIndY b => [0xB1, b]
  | .jamB2 => [0xB2]
  | .laxIndY b => [0xB3, b]
  | .ldyZpX b => [0xB4, b]
  | .ldaZpX b => [0xB5, b]
  | .ldxZpY b => [0xB6, b]
  | .laxZpY b => [0xB7, b]
  | .clv => [0xB8]
  | .ldaAbsY w => [0xB9, lo w, hi w]
  | .tsx => [0xBA]
  | .lasAbsY w => [0xBB, lo w, hi w]
  | .ldyAbsX w => [0xBC, lo w, hi w]
  | .ldaAbsX w => [0xBD, lo w, hi w]
  | .ldxAbsY w => [0xBE, lo w, hi w]
  | .laxAbsY w => [0xBF, lo w, hi w]
  | .cpyImm b => [0xC0, b]
  | .cmpIndX b => [0xC1, b]
  | .nopImmC2 b => [0xC2, b]
  | .dcpIndX b => [0xC3, b]
  | .cpyZp b => [0xC4, b]
  | .cmpZp b => [0xC5, b]
  | .decZp b => [0xC6, b]
  | .dcpZp b => [0xC7, b]
  | .iny => [0xC8]
  | .cmpImm b => [0xC9, b]
  | .dex => [0xCA]
  | .sbxImm b => [0xCB, b]
  | .cpyAbs w => [0xCC, lo w, hi w]
  | .cmpAbs w => [0xCD, lo w, hi w]
  | .decAbs w => [0xCE, lo w, hi w]
  | .dcpAbs w => [0xCF, lo w, hi w]
  | .bne b => [0xD0, b]
  | .cmpIndY b => [0xD1, b]
  | .jamD2 => [0xD2]
  | .dcpIndY b => [0xD3, b]
  | .nopZpXD4 b => [0xD4, b]
  | .cmpZpX b => [0xD5, b]
  | .decZpX b => [0xD6, b]
  | .dcpZpX b => [0xD7, b]
  | .cld => [0xD8]
  | .cmpAbsY w => [0xD9, lo w, hi w]
  | .nopDA => [0xDA]
  | .dcpAbsY w => [0xDB, lo w, hi w]
  | .nopAbsXDC w => [0xDC, lo w, hi w]
  | .cmpAbsX w => [0xDD, lo w, hi w]
  | .decAbsX w => [0xDE, lo w, hi w]
  | .dcpAbsX w => [0xDF, lo w, hi w]
  | .cpxImm b => [0xE0, b]
  | .sbcIndX b => [0xE1, b]
  | .nopImmE2 b => [0xE2, b]
  | .iscIndX b => [0xE3, b]
  | .cpxZp b => [0xE4, b]
  | .sbcZp b => [0xE5, b]
  | .incZp b => [0xE6, b]
  | .iscZp b => [0xE7, b]
  | .inx => [0xE8]
  | .sbcImm b => [0xE9, b]
  | .nop => [0xEA]
  | .usbcImm b => [0xEB, b]
  | .cpxAbs w => [0xEC, lo w, hi w]
  | .sbcAbs w => [0xED, lo w, hi w]
  | .incAbs w => [0xEE, lo w, hi w]
  | .iscAbs w => [0xEF, lo w, hi w]
  | .beq b => [0xF0, b]
  | .sbcIndY b => [0xF1, b]
  | .jamF2 => [0xF2]
  | .iscIndY b => [0xF3, b]
  | .nopZpXF4 b => [0xF4, b]
  | .sbcZpX b => [0xF5, b]
  | .incZpX b => [0xF6, b]
  | .iscZpX b => [0xF7, b]
  | .sed => [0xF8]
  | .sbcAbsY w => [0xF9, lo w, hi w]
  | .nopFA => [0xFA]
  | .iscAbsY w => [0xFB, lo w, hi w]
  | .nopAbsXFC w => [0xFC, lo w, hi w]
  | .sbcAbsX w => [0xFD, lo w, hi w]
  | .incAbsX w => [0xFE, lo w, hi w]
  | .iscAbsX w => [0xFF, lo w, hi w]

/-- The opcode byte of an instruction. -/
def Instr.opcode (i : Instr) : Byte := (encode i).headD 0

/-- The descriptor of an instruction (R143). -/
def Instr.descriptor (i : Instr) : Descriptor := Sys2Proof.descriptor i.opcode

/-- Byte `k` of an instruction whose bits are numbered as spec/opcode_table.json numbers them, the first byte in bits 7:0; the
bytes past `nbits` are 0. -/
def tableByte (nbits w k : Nat) : Byte := if 8 * k < nbits then BitVec.ofNat 8 (w >>> (8 * k)) else 0

/-- The bytes of such an instruction as the hardware stores them, the first at the lowest address (R110, R140), up to the longest
instruction's three. -/
def tableBytes (nbits w : Nat) : List Byte := [tableByte nbits w 0, tableByte nbits w 1, tableByte nbits w 2]

/-- What the decoder reads from them. -/
def decodeTableWord (nbits w : Nat) : Option Instr :=
  match decode (tableBytes nbits w) with
  | .ok (i, _) => some i
  | .error _ => none

end Sys2Proof
end

