-- ==== Sys2Proof/Machine/Sequencer.lean ====
section
/-!
DEFINITION. The sequencer: the cycle table of the running sequence as the descriptor of IR selects it (R144, R45), fetching an
instruction (R172), and completing a sequence that was left in the middle (R96).
-/

namespace Sys2Proof.Machine

/-- NOP in its implied and its read forms (R337, R371). -/
def nopPlan (m : Mode) : Plan := if m = .implied then internalPlan opIdle else readPlan m opNop

/-- A shift on A or on memory (R174, R171). -/
def shiftPlan (m : Mode) (op : RmwOp) : Plan := if m = .accumulator then accumulatorPlan op else rmwPlan m op

/-- JMP absolute or indirect (R300, R301). -/
def jmpPlan (m : Mode) : Plan := if m = .indirect then jumpIndirectPlan else jumpPlan

/-- What the descriptor selects (R144): the plan of the instruction after its operand fetches, by operation tag and mode. -/
def planFor (d : Descriptor) : Plan :=
  match d.op with
  | .ADC => readPlan d.mode opAdc
  | .ALR => readPlan d.mode opAlr
  | .ANC => readPlan d.mode opAnc
  | .AND => readPlan d.mode opAnd
  | .ANE => readPlan d.mode opAne
  | .ARR => readPlan d.mode opArr
  | .ASL => shiftPlan d.mode opAsl
  | .BCC => branchPlan condBcc
  | .BCS => branchPlan condBcs
  | .BEQ => branchPlan condBeq
  | .BIT => readPlan d.mode opBit
  | .BMI => branchPlan condBmi
  | .BNE => branchPlan condBne
  | .BPL => branchPlan condBpl
  | .BRK => brkPlan
  | .BVC => branchPlan condBvc
  | .BVS => branchPlan condBvs
  | .CLC => internalPlan opClc
  | .CLD => internalPlan opCld
  | .CLI => internalPlan opCli
  | .CLV => internalPlan opClv
  | .CMP => readPlan d.mode opCmp
  | .CPX => readPlan d.mode opCpx
  | .CPY => readPlan d.mode opCpy
  | .DCP => rmwPlan d.mode opDcp
  | .DEC => rmwPlan d.mode opDec
  | .DEX => internalPlan opDex
  | .DEY => internalPlan opDey
  | .EOR => readPlan d.mode opEor
  | .INC => rmwPlan d.mode opInc
  | .INX => internalPlan opInx
  | .INY => internalPlan opIny
  | .ISC => rmwPlan d.mode opIsc
  | .JAM => jamPlan
  | .JMP => jmpPlan d.mode
  | .JSR => jsrPlan
  | .LAS => readPlan d.mode opLas
  | .LAX => readPlan d.mode opLax
  | .LDA => readPlan d.mode opLda
  | .LDX => readPlan d.mode opLdx
  | .LDY => readPlan d.mode opLdy
  | .LSR => shiftPlan d.mode opLsr
  | .LXA => readPlan d.mode opLxa
  | .NOP => nopPlan d.mode
  | .ORA => readPlan d.mode opOra
  | .PHA => phaPlan
  | .PHP => phpPlan
  | .PLA => plaPlan
  | .PLP => plpPlan
  | .RLA => rmwPlan d.mode opRla
  | .ROL => shiftPlan d.mode opRol
  | .ROR => shiftPlan d.mode opRor
  | .RRA => rmwPlan d.mode opRra
  | .RTI => rtiPlan
  | .RTS => rtsPlan
  | .SAX => writePlan d.mode opSax
  | .SBC => readPlan d.mode opSbc
  | .SBX => readPlan d.mode opSbx
  | .SEC => internalPlan opSec
  | .SED => internalPlan opSed
  | .SEI => internalPlan opSei
  | .SHA => highBytePlan d.mode opSha id
  | .SHX => highBytePlan d.mode opShx id
  | .SHY => highBytePlan d.mode opShy id
  | .SLO => rmwPlan d.mode opSlo
  | .SRE => rmwPlan d.mode opSre
  | .STA => writePlan d.mode opSta
  | .STX => writePlan d.mode opStx
  | .STY => writePlan d.mode opSty
  | .TAS => highBytePlan d.mode opTas tasStack
  | .TAX => internalPlan opTax
  | .TAY => internalPlan opTay
  | .TSX => internalPlan opTsx
  | .TXA => internalPlan opTxa
  | .TXS => internalPlan opTxs
  | .TYA => internalPlan opTya
  | .USBC => readPlan d.mode opUsbc

/-- Operand bytes fetched before the plan's own rows: all of the mode's, but for JSR, whose high byte is read in cycle 6 (R302). -/
def operandFetches (d : Descriptor) : Nat := if d.op = .JSR then 1 else d.mode.operandBytes

/-- The cycle table of an instruction from cycle 2 on, by its opcode. -/
def instrRows (opcode : Byte) : List Row :=
  let p := planFor (descriptor opcode)
  match operandFetches (descriptor opcode) with
  | 0 => p.rows
  | 1 => rd atPc (fun s => p.start s.latchLo.incPc) :: p.rows
  | _ => operandLoRow :: rd atPc (fun s => p.start s.latchHi.incPc) :: p.rows

/-- The whole cycle table of the running sequence: row `t` (counted from 1) is cycle `t` (R45). -/
def State.rows (s : State) : List Row :=
  match s.seq with
  | .instr => fetchRow :: instrRows s.latch.ir
  | .irq => sequenceRows .irq s.cfg
  | .nmi => sequenceRows .nmi s.cfg
  | .reset => sequenceRows .reset s.cfg
  | .jammed => sequenceRows .jammed s.cfg

/-- Fetch the opcode and the operand bytes that come before the instruction's other cycles (R172), each as its bus cycle. -/
def State.fetchInstr (s : State) : State :=
  let s1 := fetchRow.run { s with seq := .instr }
  runRows (operandRows (operandFetches (descriptor s1.latch.ir))) s1

/-- The instruction that has been fetched. JSR's high target byte is still in memory at PC (entry 8). -/
def State.fetched (s : State) : Instr :=
  let d := descriptor s.latch.ir
  match d.mode.operandBytes with
  | 0 => decodeOp s.latch.ir 0 0
  | 1 => decodeOp s.latch.ir s.latch.adl 0
  | _ => decodeOp s.latch.ir s.latch.adl (if d.op = .JSR then s.peek s.regs.pc else s.latch.adh)

/-- Tick 1 samples its input although no bus cycle is outstanding (R94). -/
def State.firstTick (s : State) : State :=
  match s.lastBus with
  | none => s.arrive
  | some _ => s

/-- The outstanding bus cycle of a sequence left in the middle gets its byte (a read) or is over (a write) (R91, R92). -/
def State.finishCycle (s : State) : State :=
  match s.rows[s.t - 1]?, s.lastBus with
  | some r, some c =>
    match r.value with
    | none => r.act (State.settleRead c.addr c.sync s.inputs s)
    | some _ => s.arrive
  | _, _ => s

/-- Complete a sequence that was left in the middle: its outstanding cycle, then the rest of its table (R96, entry 20). -/
def State.resume (s : State) : State :=
  let s1 := s.finishCycle
  runRows (s1.rows.drop s.t) { s1 with t := 0, seq := restingSeq s1.seq }

/-! ### Placing an instruction for the next step -/

/-- The hook covers none of the addresses. -/
def HookRange.avoids (h : HookRange) (as : List Word) : Bool := as.all (fun a => !HookRange.covers h a)

/-- Store the bytes from `a` on into the array bytes behind their addresses. -/
def State.pokeBytes (s : State) (a : Word) : List Byte → State
  | [] => s
  | v :: vs => State.pokeBytes (s.poke a v) (a + 1) vs

/-- Put three bytes where the next step fetches, with no hook over them and at a boundary whose decision is to fetch (R405 with
`inhibit` set). Entry 16. -/
def State.placeInstruction (s : State) (bytes : List Byte) : State :=
  let pc := s.regs.pc
  let s1 := { s with
    hooks := s.hooks.filter (fun h => HookRange.avoids h [pc, pc + 1, pc + 2])
    seq := .instr
    t := 0
    ctl := { s.ctl with inhibit := true } }
  s1.pokeBytes pc bytes

end Sys2Proof.Machine
end

