-- ==== Sys2Proof/Machine/Step.lean ====
section
/-!
DEFINITION. One step: one instruction, or one IRQ, NMI or reset sequence, or one tick of the jammed state, from instruction boundary
to instruction boundary (R404, R405), every bus cycle performed in order (R7). A step from a state in the middle of a sequence
completes that sequence. And the placing of an instruction for the next step.
-/

namespace Sys2Proof.Machine

/-- One step of the machine. Entries 1 and 20. -/
def step (s : State) : Host.Outcome State Fault Refusal :=
  if s.t = 0 then
    match s.firstTick.boundary with
    | (.instr, s1) => exec s1.fetchInstr.fetched s1.fetchInstr
    | (q, s1) => .next (s1.runSequence q)
  else .next s.resume

/-- `s` with the instruction of bits `w` stored where the next step fetches. Entry 16. -/
def State.withFetchWord (s : State) (nbits w : Nat) : State := s.placeInstruction (tableBytes nbits w)

end Sys2Proof.Machine
end

