-- ==== Sys2Proof/Machine/HostInterface.lean ====
section
/-!
DEFINITION. What the host does between ticks (R436): registering hooks (R106), loading a program (R115), reading the snapshot (R59).
-/

namespace Sys2Proof.Machine

/-- Why a registration is rejected (R106). -/
inductive HookError where
  /-- The range overlaps a registered one. -/
  | overlap
  /-- `address_low` is above `address_high`; entry 12. -/
  | emptyRange
deriving DecidableEq, Repr

/-- register_hook (R106): accepted, or reported and nothing changed (D26: the caller keeps the state it had). -/
def State.registerHook (low high : Word) (handler : Nat) (s : State) : Except HookError State :=
  let h : HookRange := { low := low, high := high, handler := handler }
  if low ≤ high then
    if s.hooks.any (fun k => HookRange.overlaps h k) then .error .overlap
    else .ok { s with hooks := s.hooks ++ [h] }
  else .error .emptyRange

/-- Why a load fails (R115). -/
inductive LoadError where
  /-- `base + length > 65536`. -/
  | tooLarge
  /-- The source is unavailable. -/
  | notFound
deriving DecidableEq, Repr

/-- Copy bytes into the array through the mirrors, hooks not called (R115). -/
def State.loadBytes (s : State) (base : Word) : List Byte → State
  | [] => s
  | v :: vs => State.loadBytes (s.poke base v) (base + 1) vs

/-- Program load (R115); `none` is a source that is unavailable. -/
def State.load (source : Option (List Byte)) (base : Word) (s : State) : Except LoadError State :=
  match source with
  | none => .error .notFound
  | some bytes => if base.toNat + bytes.length > 65536 then .error .tooLarge else .ok (s.loadBytes base bytes)

/-- snapshot() (R59): defined when the last tick emitted a SYNC = 1 cycle, PC being the address on the bus; while jammed PC is the
register (R372); everything else is a free value (U3). Entry 9. -/
def State.snapshot (s : State) : Snapshot :=
  let unspecified := Config.snapshotOpen s.trace.length
  match s.lastBus with
  | some c =>
    if c.sync then
      { a := s.regs.a, x := s.regs.x, y := s.regs.y, s := s.regs.s, pc := c.addr, p := packP false s.regs.p }
    else if s.seq = .jammed then { unspecified with pc := s.regs.pc }
    else unspecified
  | none => unspecified

end Sys2Proof.Machine
end

