-- ==== Sys2Proof/Machine/BusWord.lean ====
section
/-!
DEFINITION. The Bus Word Codec (R81 to R88): the 32-bit pin word and its fields.
-/

namespace Sys2Proof.Machine

/-- Bit 24 (R81). -/
def rwMask : PinWord := 1#32 <<< 24

/-- Bit 25 (R81). -/
def syncMask : PinWord := 1#32 <<< 25

/-- Bit 26 (R81). -/
def irqMask : PinWord := 1#32 <<< 26

/-- Bit 27 (R81). -/
def nmiMask : PinWord := 1#32 <<< 27

/-- Bit 28 (R81). -/
def rdyMask : PinWord := 1#32 <<< 28

/-- Bit 29 (R81). -/
def resMask : PinWord := 1#32 <<< 29

/-- D_MASK (R81). -/
def dataMask : PinWord := 0x00FF0000

/-- encode (R82). -/
def encodePins (address : Word) (data : Byte) (readWrite : Bool) (controlLines : PinWord) : PinWord :=
  address.setWidth 32 ||| (data.setWidth 32 <<< 16) ||| ((BitVec.ofBool readWrite).setWidth 32 <<< 24)
    ||| (controlLines &&& (syncMask ||| irqMask ||| nmiMask ||| rdyMask ||| resMask))

/-- decode_address (R83). -/
def decodeAddress (p : PinWord) : Word := p.extractLsb' 0 16

/-- decode_data (R84). -/
def decodeData (p : PinWord) : Byte := p.extractLsb' 16 8

/-- set_data (R85). -/
def setData (p : PinWord) (data : Byte) : PinWord := (p &&& ~~~dataMask) ||| (data.setWidth 32 <<< 16)

/-- decode_rw (R85). -/
def decodeRw (p : PinWord) : Bool := p.getLsbD 24

/-- sync (R85). -/
def decodeSync (p : PinWord) : Bool := p.getLsbD 25

/-- irq, nmi, rdy_wait and res (R85). -/
def decodeLines (p : PinWord) : Lines where
  irq := p.getLsbD 26
  nmi := p.getLsbD 27
  rdy := p.getLsbD 28
  res := p.getLsbD 29

/-- The control-line argument of encode for a SYNC level and the input lines. -/
def controlLines (sync : Bool) (l : Lines) : PinWord :=
  ((BitVec.ofBool sync).setWidth 32 <<< 25) ||| ((BitVec.ofBool l.irq).setWidth 32 <<< 26)
    ||| ((BitVec.ofBool l.nmi).setWidth 32 <<< 27) ||| ((BitVec.ofBool l.rdy).setWidth 32 <<< 28)
    ||| ((BitVec.ofBool l.res).setWidth 32 <<< 29)

/-- The pin word of a bus cycle: the core drives A, RW, SYNC and D as R88 says, and copies the input lines. -/
def cyclePins (c : BusCycle) (l : Lines) : PinWord := encodePins c.addr c.data c.read (controlLines c.sync l)

end Sys2Proof.Machine
end

