-- ==== Sys2Proof/Machine/Tick.lean ====
section
/-!
DEFINITION. The tick contract at the level of the pins (R80, R90 to R97): one call is one clock cycle. `tick` is the core alone, for
an external bus driver (R90); `systemTick` is the core with its own memory map (R97). The same cycle tables as the steps.
-/

namespace Sys2Proof.Machine

/-- The last bus cycle was a read (R91, R93); false when none is outstanding. -/
def State.lastRead (s : State) : Bool :=
  match s.lastBus with
  | some c => c.read
  | none => false

/-- Emit one row's bus cycle on the pins. A write row's action takes effect now (R92). The cycle is read off the state before it. -/
def State.emitRow (r : Row) (s : State) : State :=
  match r.value with
  | none => s.drive { addr := r.addr s, read := true, data := s.dbus, sync := r.sync }
  | some v => (r.act s).drive { addr := r.addr s, read := false, data := v s, sync := false }

/-- The boundary decision and cycle 1 of the sequence it starts (R405). -/
def State.startSequence (s : State) : State :=
  let q := s.boundary
  let s1 := { q.2 with seq := q.1, t := 1 }
  match s1.rows with
  | [] => s1
  | r :: _ => s1.emitRow r

/-- Steps (3) and (4) of a tick (R91): a read cycle's byte is latched and its action takes effect. -/
def State.completeRow (s : State) : State :=
  match s.rows[s.t - 1]? with
  | none => s
  | some r =>
    match r.value with
    | none => r.act s.latchDl
    | some _ => s

/-- Step (4) of a tick (R91): the next cycle of the running sequence, or the boundary when there is none left. -/
def State.advance (s : State) : State :=
  match (s.rows.drop s.t).dropWhile (fun r => !r.happens s) with
  | [] => s.startSequence
  | r :: _ => State.emitRow r { s with t := s.t + 1 }

/-- The wait tick of R93: the last bus cycle again, with D from the current input. -/
def State.repeatCycle (s : State) : State :=
  match s.lastBus with
  | none => s
  | some c => s.drive { c with data := s.dbus }

/-- The input lines as last sampled. -/
def State.lines (s : State) : Lines where
  irq := s.ctl.irqLine
  nmi := s.ctl.nmiPrev
  rdy := s.ctl.rdyLine
  res := s.ctl.resPrev

/-- The output pin word: the last bus cycle with the input lines copied (R88); 0 before the first tick. -/
def State.pinsOut (s : State) : PinWord :=
  match s.lastBus with
  | none => 0
  | some c => cyclePins c s.lines

/-- The state change of one tick with the given D field and input lines (R91). At t = 0 no cycle is outstanding: this is tick 1 (R94),
or the tick that begins from the end of a step, whose input is then sampled once more (entry 25). -/
def State.clock (d : Byte) (l : Lines) (s : State) : State :=
  let s1 := { s.sample l with dbus := d }
  if s1.t = 0 then s1.startSequence
  else if l.rdy && s1.lastRead then s1.repeatCycle
  else s1.completeRow.advance

/-- `tick(pins_in) -> pins_out` (R80, R90, R91). -/
def tick (s : State) (pinsIn : PinWord) : State × PinWord :=
  let s1 := s.clock (decodeData pinsIn) (decodeLines pinsIn)
  (s1, s1.pinsOut)

/-- The memory map resolves the bus cycle of an output pin word (R97): its D field is the next input's. -/
def State.service (out : PinWord) (s : State) : State :=
  if decodeRw out then s.accessRead (decodeAddress out) else s.accessWrite (decodeAddress out) (decodeData out)

/-- The input pin word the environment gives next: the D field left by the memory map and the next levels of the lines (R97). -/
def State.pinsIn (s : State) : PinWord := encodePins 0 s.dbus false (controlLines false (s.inputs.headD Lines.idle))

/-- One system step of the internal-memory architecture (R97). -/
def systemTick (s : State) : State :=
  let q := tick { s with inputs := s.inputs.tail } s.pinsIn
  q.1.service q.2

/-- `n` system steps. -/
def systemTicks : Nat → State → State
  | 0, s => s
  | n + 1, s => systemTicks n (systemTick s)

/-- From the end of a step into the ticks: the boundary decision is taken on the lines already sampled, cycle 1 is emitted and the
memory map resolves it. -/
def State.openSequence (s : State) : State := State.service s.startSequence.pinsOut s.startSequence

end Sys2Proof.Machine
end

