-- ==== Sys2Proof/WellFormed.lean ====
section
/-!
DEFINITION. Well-formedness. Every Instr is well formed: its operands are typed by their widths and every opcode is assigned (R144,
R152). The checks that can fail are those on what the embedder sets up: the parameters (R5, R102) and the hooks (R106).
-/

namespace Sys2Proof

/-- Every instruction is well formed (R144, R152). -/
def Instr.wellFormed (_ : Instr) : Bool := true

/-- R102: low <= high, size >= 1, base + size <= 65536. -/
def MirrorRegion.wellFormed (m : MirrorRegion) : Bool :=
  decide (m.low ≤ m.high) && decide (1 ≤ m.size) && decide (m.base.toNat + m.size ≤ 65536)

/-- The two regions share an address. -/
def MirrorRegion.overlaps (m n : MirrorRegion) : Bool := decide (m.low ≤ n.high) && decide (n.low ≤ m.high)

/-- R102: no two mirror regions of a configuration overlap. -/
def mirrorsDisjoint : List MirrorRegion → Bool
  | [] => true
  | m :: ms => ms.all (fun n => !MirrorRegion.overlaps m n) && mirrorsDisjoint ms

/-- A legal set of parameters (R5, R102). -/
def Config.wellFormed (c : Config) : Bool :=
  (c.resetCycles == 6 || c.resetCycles == 7) && c.mirrors.all MirrorRegion.wellFormed && mirrorsDisjoint c.mirrors

/-- R106: every hook range has low <= high and no two overlap. -/
def hooksWellFormed : List Machine.HookRange → Bool
  | [] => true
  | h :: hs => decide (h.low ≤ h.high) && hs.all (fun k => !Machine.HookRange.overlaps h k) && hooksWellFormed hs

end Sys2Proof
end

