-- ==== Sys2Proof/Safety.lean ====
section
/-!
DEFINITION. What counts as a well-kept state and a safe run, in the terms the statements use.
-/

namespace Sys2Proof.Machine

/-- A state between two steps in which everything the rules promise of the stored data holds: the backing array is canonical, the
parameters and the hooks are legal (R102, R106), and no cycle is outstanding (R404). -/
def State.Inv (s : State) : Prop :=
  Memory.wf s.mem = true ∧ s.cfg.wellFormed = true ∧ hooksWellFormed s.hooks = true ∧ s.t = 0 ∧
    (s.seq = .instr ∨ s.seq = .jammed)

/-- Every address reads in `t` as it read in `s`, and the whole array is the same (R100). -/
def SameMemory (s t : State) : Prop := t.mem = s.mem ∧ ∀ a, t.peek a = s.peek a

/-- No hook covers any address. -/
def State.NoHooks (s : State) : Prop := ∀ a, s.hookAt a = none

/-- No coming input asks the core to wait (R93). -/
def State.NoWaits (s : State) : Prop := ∀ l ∈ s.inputs, l.rdy = false

/-- No hook covers the address. -/
def State.Plain (s : State) (a : Word) : Prop := s.hookAt a = none

/-- The address has a byte of the array behind it that `b`'s is not (R101, R103). -/
def State.Apart (s : State) (a b : Word) : Prop := mirrorIndex s.cfg.mirrors a ≠ mirrorIndex s.cfg.mirrors b

/-! ### Effective addresses, written from 40_addressing.md without the machine -/

/-- The effective address of operand `w` in mode `m`, the pointer bytes taken as the array holds them (R176 to R193). A one-byte
operand is the low byte of `w`; modes without an effective address give the operand itself. -/
def effectiveAddress (m : Mode) (w : Word) (s : State) : Word :=
  match m with
  | .implied | .accumulator | .immediate | .relative | .absolute | .indirect => w
  | .zeroPage => zext (lo w)
  | .zeroPageX => zext (lo w + s.regs.x)
  | .zeroPageY => zext (lo w + s.regs.y)
  | .absoluteX => w + zext s.regs.x
  | .absoluteY => w + zext s.regs.y
  | .indirectX => pair (s.peek (zext (lo w + s.regs.x + 1))) (s.peek (zext (lo w + s.regs.x)))
  | .indirectY => pair (s.peek (zext (lo w + 1))) (s.peek (zext (lo w))) + zext s.regs.y

/-- The zero-page cells of the pointer that an indirect mode reads (R187, R189). -/
def pointerCells (m : Mode) (w : Word) (s : State) : List Word :=
  match m with
  | .indirectX => [zext (lo w + s.regs.x), zext (lo w + s.regs.x + 1)]
  | .indirectY => [zext (lo w), zext (lo w + 1)]
  | .implied | .accumulator | .immediate | .relative | .absolute | .indirect | .zeroPage | .zeroPageX | .zeroPageY | .absoluteX
  | .absoluteY => []

/-- No hook covers the pointer's cells. -/
def PointersPlain (m : Mode) (w : Word) (s : State) : Prop := ∀ a ∈ pointerCells m w s, s.Plain a

/-- The address before the indexing that can cross a page (R182, R189). -/
def baseAddress (m : Mode) (w : Word) (s : State) : Word :=
  match m with
  | .indirectY => pair (s.peek (zext (lo w + 1))) (s.peek (zext (lo w)))
  | .implied | .accumulator | .immediate | .relative | .absolute | .indirect | .zeroPage | .zeroPageX | .zeroPageY | .absoluteX
  | .absoluteY | .indirectX => w

/-- The modes that add an index to a 16-bit base (R182, R189). -/
def indexedBase (m : Mode) : Bool :=
  match m with
  | .absoluteX | .absoluteY | .indirectY => true
  | .implied | .accumulator | .immediate | .relative | .absolute | .indirect | .zeroPage | .zeroPageX | .zeroPageY
  | .indirectX => false

/-- `crossed`: the effective address lies in another page than the base (R182). -/
def pageCrossed (m : Mode) (w : Word) (s : State) : Bool :=
  indexedBase m && decide (hi (effectiveAddress m w s) ≠ hi (baseAddress m w s))

/-- The uncorrected address UA (R182). -/
def uncorrectedAddress (m : Mode) (w : Word) (s : State) : Word :=
  pair (hi (baseAddress m w s)) (lo (effectiveAddress m w s))

/-! ### Bus cycles as the cycle tables name them (R13) -/

/-- What a cycle table says of a cycle: the address, read or write, the byte of a write, SYNC. -/
inductive Pins where
  | read (a : Word)
  | fetch (a : Word)
  | write (a : Word) (v : Byte)
deriving DecidableEq, Repr

/-- A recorded bus cycle in those terms. -/
def BusCycle.pins (c : BusCycle) : Pins :=
  if c.read then (if c.sync then .fetch c.addr else .read c.addr) else .write c.addr c.data

/-- Between `s` and `t` exactly the cycles of `l` appeared on the bus, in this order. -/
def AddsCycles (s t : State) (l : List Pins) : Prop :=
  t.trace.map BusCycle.pins = l.reverse ++ s.trace.map BusCycle.pins

/-- The cycles between the operand fetches and the first cycle at UA or EA (R179, R188, R190). -/
def addressCycles (m : Mode) (w : Word) (s : State) : List Pins :=
  match m with
  | .zeroPageX | .zeroPageY => [.read (zext (lo w))]
  | .indirectX => [.read (zext (lo w)), .read (zext (lo w + s.regs.x)), .read (zext (lo w + s.regs.x + 1))]
  | .indirectY => [.read (zext (lo w)), .read (zext (lo w + 1))]
  | .implied | .accumulator | .immediate | .relative | .absolute | .indirect | .zeroPage | .absoluteX | .absoluteY => []

/-- The read class after its operand fetches (R177, R179, R181, R183, R188, R190). -/
def readCycles (m : Mode) (w : Word) (s : State) : List Pins :=
  addressCycles m w s ++ (if pageCrossed m w s then [.read (uncorrectedAddress m w s)] else [])
    ++ [.read (effectiveAddress m w s)]

/-- The dummy read of UA that stores and read-modify-writes always make (R184, R185, R191, R192). -/
def fixCycles (m : Mode) (w : Word) (s : State) : List Pins :=
  if indexedBase m then [.read (uncorrectedAddress m w s)] else []

/-- The write class after its operand fetches, the byte `v` written to `a` (R177, R179, R181, R184, R188, R191). -/
def writeCycles (m : Mode) (w : Word) (s : State) (a : Word) (v : Byte) : List Pins :=
  addressCycles m w s ++ fixCycles m w s ++ [.write a v]

/-- The read-modify-write class after its operand fetches (R171, R177, R179, R181, R185, R188, R192, R196). -/
def rmwCycles (m : Mode) (w : Word) (s : State) (old new : Byte) : List Pins :=
  addressCycles m w s ++ fixCycles m w s ++
    [.read (effectiveAddress m w s), .write (effectiveAddress m w s) old, .write (effectiveAddress m w s) new]

/-- The operand bytes of an instruction of mode `m` in the latches. -/
def loadOperand (m : Mode) (w : Word) (s : State) : State :=
  match m.operandBytes with
  | 0 => s
  | 1 => operand8 (lo w) s
  | _ => operand16 w s

/-! ### What an instruction leaves alone -/

/-- Neither the sequence that runs, nor the cycle index, the hooks, the parameters, `inhibit` and the instruction register have
changed. -/
structure KeepsRest (s t : State) : Prop where
  seq : t.seq = s.seq
  index : t.t = s.t
  hooks : t.hooks = s.hooks
  cfg : t.cfg = s.cfg
  inhibit : t.ctl.inhibit = s.ctl.inhibit
  ir : t.latch.ir = s.latch.ir

/-- The latch EA of `t` is the effective address of operand `w` in mode `m` at `s`: the pointer bytes are those the array holds
where no hook covers their cells, and whatever the cells' hooks answered otherwise (R176 to R190). -/
structure Located (m : Mode) (w : Word) (s t : State) : Prop where
  direct : pointerCells m w s = [] → t.latch.ea = effectiveAddress m w s
  plain : (∀ a ∈ pointerCells m w s, s.Plain a) → t.latch.ea = effectiveAddress m w s
  answeredX : m = .indirectX → t.latch.ea = pair t.latch.adh t.latch.adl
  answeredY : m = .indirectY → t.latch.ea = pair t.latch.adh t.latch.adl + zext s.regs.y

/-- As `KeepsRest`, but that `inhibit` is set (R407). -/
structure KeepsButInhibit (s t : State) : Prop where
  seq : t.seq = s.seq
  index : t.t = s.t
  hooks : t.hooks = s.hooks
  cfg : t.cfg = s.cfg
  inhibit : t.ctl.inhibit = true
  ir : t.latch.ir = s.latch.ir

/-- The array after the byte `v` was written to `a`: a hook takes it, or the byte behind `a` is `v` and every byte behind another
index is as it was (R101, R103, R105). -/
structure Stores (a : Word) (v : Byte) (s t : State) : Prop where
  hooked : ¬ s.Plain a → t.mem = s.mem
  plain : s.Plain a → Memory.wf s.mem = true → t.mem = (s.poke a v).mem
  same : s.Plain a → Memory.wf s.mem = true → ∀ b, ¬ s.Apart b a → t.peek b = v
  other : ∀ b, s.Apart b a → t.peek b = s.peek b

/-- `s` with `v` stored behind `a` unless a hook covers `a` (R101, R105). -/
def State.stored (a : Word) (v : Byte) (s : State) : State := if s.hookAt a = none then s.poke a v else s

/-- Taking an interrupt or BRK through the vector at `vec`, pushing the status byte with B = `b` (R305 and R411, cycles 3 to 7, R413):
what the registers and the array are after it. -/
structure Enters (vec : Word) (b : Bool) (s t : State) : Prop where
  regs : t.regs = { s.regs with
    s := s.regs.s - 3, pc := pair t.latch.adh t.latch.adl, p := { s.regs.p with i := true } }
  low : s.Plain vec → t.latch.adl = t.peek vec
  high : s.Plain (vec + 1) → t.latch.adh = t.peek (vec + 1)
  mem : t.mem = (((s.stored (stackAddr s.regs.s) (hi s.regs.pc)).stored (stackAddr (s.regs.s - 1)) (lo s.regs.pc)).stored
    (stackAddr (s.regs.s - 2)) (packP b s.regs.p)).mem
  frame : ∀ a, s.Apart a (stackAddr s.regs.s) → s.Apart a (stackAddr (s.regs.s - 1)) →
    s.Apart a (stackAddr (s.regs.s - 2)) → t.peek a = s.peek a
  rest : KeepsButInhibit s t

/-- The bus cycles of the entry (R305 and R411, cycles 3 to 7). -/
def entryCycles (vec : Word) (b : Bool) (s : State) : List Pins :=
  [.write (stackAddr s.regs.s) (hi s.regs.pc), .write (stackAddr (s.regs.s - 1)) (lo s.regs.pc),
   .write (stackAddr (s.regs.s - 2)) (packP b s.regs.p), .read vec, .read (vec + 1)]

/-- The bus cycles of a reset sequence (R450). -/
def resetCycles (s : State) : List Pins :=
  (if s.cfg.resetCycles = 7 then [.read s.regs.pc] else []) ++
    [.read s.regs.pc, .read (stackAddr s.regs.s), .read (stackAddr (s.regs.s - 1)), .read (stackAddr (s.regs.s - 2)),
     .read resetVector, .read (resetVector + 1)]

/-- The bus cycles of a branch after its operand fetch (R306). -/
def branchCycles (taken : Bool) (b : Byte) (s : State) : List Pins :=
  let target := s.regs.pc + sext b
  if taken then
    .read s.regs.pc :: (if hi target = hi s.regs.pc then [] else [.read (pair (hi s.regs.pc) (lo target))])
  else []

end Sys2Proof.Machine
end

