-- ==== Sys2Proof/Certificates/Slice0/Obligations.lean ====
section
/-!
DEFINITION. The statements for the provers. The notions they share stand first, in Sys2Proof.Claims: a form of an instruction with
its encoding, and what the forms of one access class do. Each statement's docstring names the rules of spec/ it comes from.
-/

namespace Sys2Proof.Claims

open Sys2Proof.Machine

/-! ### Fetching -/

/-- The next step fetches an instruction: between sequences, not jammed, and the boundary decision finds nothing to take or is inhibited
(R405). -/
def FetchesNext (s : State) : Prop :=
  s.t = 0 ∧ s.seq = .instr ∧ s.lastBus ≠ none ∧
    (s.ctl.inhibit = true ∨
      (s.ctl.resPending = false ∧ s.ctl.nmiPending = false ∧ (s.ctl.irqLine = false ∨ s.regs.p.i = true)))

/-- The three bytes the array holds from PC on. -/
def bytesAtPc (s : State) : List Byte := [s.peek s.regs.pc, s.peek (s.regs.pc + 1), s.peek (s.regs.pc + 2)]

/-- The array holds instruction `i` at PC, no hook covering its bytes. -/
def HoldsAtPc (i : Instr) (s : State) : Prop :=
  (∃ rest, decode (bytesAtPc s) = .ok (i, rest)) ∧
    ∀ k, k < i.descriptor.length → s.Plain (s.regs.pc + BitVec.ofNat 16 k)

/-- The operand of an instruction as a word. -/
def operandOf (i : Instr) : Word := pair ((encode i).getD 2 0) ((encode i).getD 1 0)

/-- The bytes fetched before the other cycles: all of the instruction, but for JSR, whose last byte is read in cycle 6 (R302). -/
def fetchedBytes (i : Instr) : Nat := if i.descriptor.op = .JSR then 2 else i.descriptor.length

/-- The state in which the fetches of instruction `i` have been made: PC past the fetched bytes, IR the opcode, `inhibit` cleared,
nothing else changed; without waits the bus shows cycle 1, with SYNC, and a read for every operand byte (R13, R172, R405). -/
structure Fetches (i : Instr) (s u : State) : Prop where
  regs : u.regs = { s.regs with pc := s.regs.pc + BitVec.ofNat 16 (fetchedBytes i) }
  memory : SameMemory s u
  seq : u.seq = .instr
  index : u.t = 0
  hooks : u.hooks = s.hooks
  cfg : u.cfg = s.cfg
  inhibit : u.ctl.inhibit = false
  ir : u.latch.ir = i.opcode
  bus : s.NoWaits → u.NoWaits ∧
    AddsCycles s u (.fetch s.regs.pc ::
      (List.range (fetchedBytes i - 1)).map (fun k => .read (s.regs.pc + BitVec.ofNat 16 (k + 1))))

/-! ### Forms -/

/-- One encoding of an instruction: its opcode, mode and base cycle count, and the instruction for an operand (a one-byte operand is
the low byte of the word). -/
structure Form where
  opcode : Byte
  mode : Mode
  cycles : Nat
  instr : Word → Instr

/-- The operand bytes of a mode, low byte first (R141, R142). -/
def operandBytesOf (m : Mode) (w : Word) : List Byte :=
  match m with
  | .implied | .accumulator => []
  | .immediate | .zeroPage | .zeroPageX | .zeroPageY | .indirectX | .indirectY | .relative => [lo w]
  | .absolute | .absoluteX | .absoluteY | .indirect => [lo w, hi w]

/-- The form is encoded as its opcode and operand bytes, its descriptor is as given, and a step that finds it at PC makes its fetches and
then runs it. The penalty flag stands for the read class of the modes that index a 16-bit base (R146). -/
def Encoded (f : Form) (op : Operation) (acc : Access) (illegal : Bool) : Prop :=
  ∀ w, encode (f.instr w) = f.opcode :: operandBytesOf f.mode w ∧
    (f.instr w).descriptor =
      { opcode := f.opcode, op := op, mode := f.mode, cycles := f.cycles,
        penalty := decide (acc = .read) && indexedBase f.mode, access := acc, illegal := illegal } ∧
    ∀ s, FetchesNext s → HoldsAtPc (f.instr w) s → ∃ u, step s = exec (f.instr w) u ∧ Fetches (f.instr w) s u

/-- Z and N from a byte (R12). -/
def withNZ (v : Byte) (p : Status) : Status := { p with z := decide (v = 0), n := decide (128 ≤ v.toNat) }

/-- A read-class form: it completes; the registers are `effect` of the byte `m` it read; that byte is the immediate byte, or what the
effective address answered, the array's byte where no hook covers it; memory and everything else stay; and without waits
the bus shows the cycles of the mode's table after the operand fetches. -/
def ReadForm (op : Operation) (illegal : Bool) (effect : Config → Byte → Regs → Regs) (f : Form) : Prop :=
  Encoded f op .read illegal ∧
  ∀ (w : Word) (s : State), ∃ t, exec (f.instr w) s = .next t ∧
    t.regs = effect s.cfg t.latch.dl s.regs ∧ SameMemory s t ∧ KeepsRest s t ∧
    (f.mode = .immediate → t.latch.dl = lo w ∧ AddsCycles s t []) ∧
    (f.mode ≠ .immediate → Located f.mode w s t ∧ (s.Plain t.latch.ea → t.latch.dl = s.peek t.latch.ea) ∧
      (s.NoWaits → PointersPlain f.mode w s → AddsCycles s t (readCycles f.mode w s)))

/-- A write-class form: it completes; no register changes; the byte `value` is stored at the effective address and every byte behind
another index is as it was; the bus shows the mode's table. -/
def WriteForm (op : Operation) (illegal : Bool) (value : Regs → Byte) (f : Form) : Prop :=
  Encoded f op .write illegal ∧
  ∀ (w : Word) (s : State), ∃ t, exec (f.instr w) s = .next t ∧
    t.regs = s.regs ∧ Located f.mode w s t ∧ Stores t.latch.ea (value s.regs) s t ∧ KeepsRest s t ∧
    (s.NoWaits → PointersPlain f.mode w s →
      AddsCycles s t (writeCycles f.mode w s (effectiveAddress f.mode w s) (value s.regs)))

/-- A read-modify-write form: it completes; `result` of the byte read is stored at the effective address after that byte itself was
written back; the registers are `effect`; the bus shows the mode's table. -/
def RmwForm (op : Operation) (illegal : Bool) (result : Byte → Regs → Byte) (effect : Config → Byte → Regs → Regs) (f : Form) :
    Prop :=
  Encoded f op .readModifyWrite illegal ∧
  ∀ (w : Word) (s : State), ∃ t, exec (f.instr w) s = .next t ∧
    t.regs = effect s.cfg t.latch.dl s.regs ∧ Located f.mode w s t ∧
    (s.Plain t.latch.ea → t.latch.dl = s.peek t.latch.ea) ∧ Stores t.latch.ea (result t.latch.dl s.regs) s t ∧ KeepsRest s t ∧
    (s.NoWaits → PointersPlain f.mode w s → AddsCycles s t (rmwCycles f.mode w s t.latch.dl (result t.latch.dl s.regs)))

/-- A form without memory operand (internal class): the registers are `effect`, memory and everything else stay, and the bus shows
the dummy read of the next byte (R173, R174). -/
def InternalForm (op : Operation) (illegal : Bool) (effect : Regs → Regs) (f : Form) : Prop :=
  Encoded f op .internal illegal ∧
  ∀ (w : Word) (s : State), ∃ t, exec (f.instr w) s = .next t ∧
    t.regs = effect s.regs ∧ SameMemory s t ∧ KeepsRest s t ∧ (s.NoWaits → AddsCycles s t [.read s.regs.pc])

/-- A conditional branch (R306), PC being past its two bytes: the target is PC plus the signed displacement (R193). -/
def BranchForm (op : Operation) (cond : Status → Prop) (f : Form) : Prop :=
  Encoded f op .branch false ∧
  ∀ (w : Word) (s : State), ∃ t, exec (f.instr w) s = .next t ∧
    (cond s.regs.p → t.regs = { s.regs with pc := BitVec.ofInt 16 (s.regs.pc.toNat + (lo w).toInt) } ∧
      (s.NoWaits → AddsCycles s t (branchCycles true (lo w) s))) ∧
    (¬ cond s.regs.p → t.regs = s.regs ∧ AddsCycles s t []) ∧ SameMemory s t ∧ KeepsRest s t

/-- A high-byte store (47_illegal.md section 5): the value is the register AND the base's high byte plus one; on a page crossing the
address's high byte is that value. -/
def HighByteForm (op : Operation) (reg : Regs → Byte) (effect : Regs → Regs) (f : Form) : Prop :=
  Encoded f op .write true ∧
  ∀ (w : Word) (s : State), ∃ t v a, exec (f.instr w) s = .next t ∧
    v = reg s.regs &&& (t.latch.bah + 1) ∧ a = (if t.latch.crossed = true then pair v (lo t.latch.ea) else t.latch.ea) ∧
    t.regs = effect s.regs ∧ Located f.mode w s t ∧ Stores a v s t ∧ KeepsRest s t ∧ t.latch.bah = t.latch.adh ∧
    t.latch.crossed = decide (255 < t.latch.adl.toNat + (if f.mode = .absoluteX then s.regs.x else s.regs.y).toNat) ∧
    (PointersPlain f.mode w s →
      t.latch.bah = hi (baseAddress f.mode w s) ∧ t.latch.crossed = pageCrossed f.mode w s ∧
      (s.NoWaits → AddsCycles s t (writeCycles f.mode w s a v)))

/-- R220. -/
def ldaForms : List Form :=
  [⟨0xA1, .indirectX, 6, fun w => .ldaIndX (lo w)⟩,
   ⟨0xA5, .zeroPage, 3, fun w => .ldaZp (lo w)⟩,
   ⟨0xA9, .immediate, 2, fun w => .ldaImm (lo w)⟩,
   ⟨0xAD, .absolute, 4, fun w => .ldaAbs w⟩,
   ⟨0xB1, .indirectY, 5, fun w => .ldaIndY (lo w)⟩,
   ⟨0xB5, .zeroPageX, 4, fun w => .ldaZpX (lo w)⟩,
   ⟨0xB9, .absoluteY, 4, fun w => .ldaAbsY w⟩,
   ⟨0xBD, .absoluteX, 4, fun w => .ldaAbsX w⟩]
/-- R221. -/
def ldxForms : List Form :=
  [⟨0xA2, .immediate, 2, fun w => .ldxImm (lo w)⟩,
   ⟨0xA6, .zeroPage, 3, fun w => .ldxZp (lo w)⟩,
   ⟨0xAE, .absolute, 4, fun w => .ldxAbs w⟩,
   ⟨0xB6, .zeroPageY, 4, fun w => .ldxZpY (lo w)⟩,
   ⟨0xBE, .absoluteY, 4, fun w => .ldxAbsY w⟩]
/-- R222. -/
def ldyForms : List Form :=
  [⟨0xA0, .immediate, 2, fun w => .ldyImm (lo w)⟩,
   ⟨0xA4, .zeroPage, 3, fun w => .ldyZp (lo w)⟩,
   ⟨0xAC, .absolute, 4, fun w => .ldyAbs w⟩,
   ⟨0xB4, .zeroPageX, 4, fun w => .ldyZpX (lo w)⟩,
   ⟨0xBC, .absoluteX, 4, fun w => .ldyAbsX w⟩]
/-- R223. -/
def staForms : List Form :=
  [⟨0x81, .indirectX, 6, fun w => .staIndX (lo w)⟩,
   ⟨0x85, .zeroPage, 3, fun w => .staZp (lo w)⟩,
   ⟨0x8D, .absolute, 4, fun w => .staAbs w⟩,
   ⟨0x91, .indirectY, 6, fun w => .staIndY (lo w)⟩,
   ⟨0x95, .zeroPageX, 4, fun w => .staZpX (lo w)⟩,
   ⟨0x99, .absoluteY, 5, fun w => .staAbsY w⟩,
   ⟨0x9D, .absoluteX, 5, fun w => .staAbsX w⟩]
/-- R224. -/
def stxForms : List Form :=
  [⟨0x86, .zeroPage, 3, fun w => .stxZp (lo w)⟩,
   ⟨0x8E, .absolute, 4, fun w => .stxAbs w⟩,
   ⟨0x96, .zeroPageY, 4, fun w => .stxZpY (lo w)⟩]
/-- R225. -/
def styForms : List Form :=
  [⟨0x84, .zeroPage, 3, fun w => .styZp (lo w)⟩,
   ⟨0x8C, .absolute, 4, fun w => .styAbs w⟩,
   ⟨0x94, .zeroPageX, 4, fun w => .styZpX (lo w)⟩]
/-- R254. -/
def adcForms : List Form :=
  [⟨0x61, .indirectX, 6, fun w => .adcIndX (lo w)⟩,
   ⟨0x65, .zeroPage, 3, fun w => .adcZp (lo w)⟩,
   ⟨0x69, .immediate, 2, fun w => .adcImm (lo w)⟩,
   ⟨0x6D, .absolute, 4, fun w => .adcAbs w⟩,
   ⟨0x71, .indirectY, 5, fun w => .adcIndY (lo w)⟩,
   ⟨0x75, .zeroPageX, 4, fun w => .adcZpX (lo w)⟩,
   ⟨0x79, .absoluteY, 4, fun w => .adcAbsY w⟩,
   ⟨0x7D, .absoluteX, 4, fun w => .adcAbsX w⟩]
/-- R255. -/
def sbcForms : List Form :=
  [⟨0xE1, .indirectX, 6, fun w => .sbcIndX (lo w)⟩,
   ⟨0xE5, .zeroPage, 3, fun w => .sbcZp (lo w)⟩,
   ⟨0xE9, .immediate, 2, fun w => .sbcImm (lo w)⟩,
   ⟨0xED, .absolute, 4, fun w => .sbcAbs w⟩,
   ⟨0xF1, .indirectY, 5, fun w => .sbcIndY (lo w)⟩,
   ⟨0xF5, .zeroPageX, 4, fun w => .sbcZpX (lo w)⟩,
   ⟨0xF9, .absoluteY, 4, fun w => .sbcAbsY w⟩,
   ⟨0xFD, .absoluteX, 4, fun w => .sbcAbsX w⟩]
/-- R365. -/
def usbcForms : List Form :=
  [⟨0xEB, .immediate, 2, fun w => .usbcImm (lo w)⟩]
/-- R256. -/
def andForms : List Form :=
  [⟨0x21, .indirectX, 6, fun w => .andIndX (lo w)⟩,
   ⟨0x25, .zeroPage, 3, fun w => .andZp (lo w)⟩,
   ⟨0x29, .immediate, 2, fun w => .andImm (lo w)⟩,
   ⟨0x2D, .absolute, 4, fun w => .andAbs w⟩,
   ⟨0x31, .indirectY, 5, fun w => .andIndY (lo w)⟩,
   ⟨0x35, .zeroPageX, 4, fun w => .andZpX (lo w)⟩,
   ⟨0x39, .absoluteY, 4, fun w => .andAbsY w⟩,
   ⟨0x3D, .absoluteX, 4, fun w => .andAbsX w⟩]
/-- R257. -/
def oraForms : List Form :=
  [⟨0x01, .indirectX, 6, fun w => .oraIndX (lo w)⟩,
   ⟨0x05, .zeroPage, 3, fun w => .oraZp (lo w)⟩,
   ⟨0x09, .immediate, 2, fun w => .oraImm (lo w)⟩,
   ⟨0x0D, .absolute, 4, fun w => .oraAbs w⟩,
   ⟨0x11, .indirectY, 5, fun w => .oraIndY (lo w)⟩,
   ⟨0x15, .zeroPageX, 4, fun w => .oraZpX (lo w)⟩,
   ⟨0x19, .absoluteY, 4, fun w => .oraAbsY w⟩,
   ⟨0x1D, .absoluteX, 4, fun w => .oraAbsX w⟩]
/-- R258. -/
def eorForms : List Form :=
  [⟨0x41, .indirectX, 6, fun w => .eorIndX (lo w)⟩,
   ⟨0x45, .zeroPage, 3, fun w => .eorZp (lo w)⟩,
   ⟨0x49, .immediate, 2, fun w => .eorImm (lo w)⟩,
   ⟨0x4D, .absolute, 4, fun w => .eorAbs w⟩,
   ⟨0x51, .indirectY, 5, fun w => .eorIndY (lo w)⟩,
   ⟨0x55, .zeroPageX, 4, fun w => .eorZpX (lo w)⟩,
   ⟨0x59, .absoluteY, 4, fun w => .eorAbsY w⟩,
   ⟨0x5D, .absoluteX, 4, fun w => .eorAbsX w⟩]
/-- R260. -/
def cmpForms : List Form :=
  [⟨0xC1, .indirectX, 6, fun w => .cmpIndX (lo w)⟩,
   ⟨0xC5, .zeroPage, 3, fun w => .cmpZp (lo w)⟩,
   ⟨0xC9, .immediate, 2, fun w => .cmpImm (lo w)⟩,
   ⟨0xCD, .absolute, 4, fun w => .cmpAbs w⟩,
   ⟨0xD1, .indirectY, 5, fun w => .cmpIndY (lo w)⟩,
   ⟨0xD5, .zeroPageX, 4, fun w => .cmpZpX (lo w)⟩,
   ⟨0xD9, .absoluteY, 4, fun w => .cmpAbsY w⟩,
   ⟨0xDD, .absoluteX, 4, fun w => .cmpAbsX w⟩]
/-- R261. -/
def cpxForms : List Form :=
  [⟨0xE0, .immediate, 2, fun w => .cpxImm (lo w)⟩,
   ⟨0xE4, .zeroPage, 3, fun w => .cpxZp (lo w)⟩,
   ⟨0xEC, .absolute, 4, fun w => .cpxAbs w⟩]
/-- R262. -/
def cpyForms : List Form :=
  [⟨0xC0, .immediate, 2, fun w => .cpyImm (lo w)⟩,
   ⟨0xC4, .zeroPage, 3, fun w => .cpyZp (lo w)⟩,
   ⟨0xCC, .absolute, 4, fun w => .cpyAbs w⟩]
/-- R263. -/
def bitForms : List Form :=
  [⟨0x24, .zeroPage, 3, fun w => .bitZp (lo w)⟩,
   ⟨0x2C, .absolute, 4, fun w => .bitAbs w⟩]
/-- R280. -/
def incForms : List Form :=
  [⟨0xE6, .zeroPage, 5, fun w => .incZp (lo w)⟩,
   ⟨0xEE, .absolute, 6, fun w => .incAbs w⟩,
   ⟨0xF6, .zeroPageX, 6, fun w => .incZpX (lo w)⟩,
   ⟨0xFE, .absoluteX, 7, fun w => .incAbsX w⟩]
/-- R281. -/
def decForms : List Form :=
  [⟨0xC6, .zeroPage, 5, fun w => .decZp (lo w)⟩,
   ⟨0xCE, .absolute, 6, fun w => .decAbs w⟩,
   ⟨0xD6, .zeroPageX, 6, fun w => .decZpX (lo w)⟩,
   ⟨0xDE, .absoluteX, 7, fun w => .decAbsX w⟩]
/-- R286, the memory forms. -/
def aslForms : List Form :=
  [⟨0x06, .zeroPage, 5, fun w => .aslZp (lo w)⟩,
   ⟨0x0E, .absolute, 6, fun w => .aslAbs w⟩,
   ⟨0x16, .zeroPageX, 6, fun w => .aslZpX (lo w)⟩,
   ⟨0x1E, .absoluteX, 7, fun w => .aslAbsX w⟩]
/-- R287, the memory forms. -/
def lsrForms : List Form :=
  [⟨0x46, .zeroPage, 5, fun w => .lsrZp (lo w)⟩,
   ⟨0x4E, .absolute, 6, fun w => .lsrAbs w⟩,
   ⟨0x56, .zeroPageX, 6, fun w => .lsrZpX (lo w)⟩,
   ⟨0x5E, .absoluteX, 7, fun w => .lsrAbsX w⟩]
/-- R288, the memory forms. -/
def rolForms : List Form :=
  [⟨0x26, .zeroPage, 5, fun w => .rolZp (lo w)⟩,
   ⟨0x2E, .absolute, 6, fun w => .rolAbs w⟩,
   ⟨0x36, .zeroPageX, 6, fun w => .rolZpX (lo w)⟩,
   ⟨0x3E, .absoluteX, 7, fun w => .rolAbsX w⟩]
/-- R289, the memory forms. -/
def rorForms : List Form :=
  [⟨0x66, .zeroPage, 5, fun w => .rorZp (lo w)⟩,
   ⟨0x6E, .absolute, 6, fun w => .rorAbs w⟩,
   ⟨0x76, .zeroPageX, 6, fun w => .rorZpX (lo w)⟩,
   ⟨0x7E, .absoluteX, 7, fun w => .rorAbsX w⟩]
/-- R351. -/
def sloForms : List Form :=
  [⟨0x03, .indirectX, 8, fun w => .sloIndX (lo w)⟩,
   ⟨0x07, .zeroPage, 5, fun w => .sloZp (lo w)⟩,
   ⟨0x0F, .absolute, 6, fun w => .sloAbs w⟩,
   ⟨0x13, .indirectY, 8, fun w => .sloIndY (lo w)⟩,
   ⟨0x17, .zeroPageX, 6, fun w => .sloZpX (lo w)⟩,
   ⟨0x1B, .absoluteY, 7, fun w => .sloAbsY w⟩,
   ⟨0x1F, .absoluteX, 7, fun w => .sloAbsX w⟩]
/-- R352. -/
def rlaForms : List Form :=
  [⟨0x23, .indirectX, 8, fun w => .rlaIndX (lo w)⟩,
   ⟨0x27, .zeroPage, 5, fun w => .rlaZp (lo w)⟩,
   ⟨0x2F, .absolute, 6, fun w => .rlaAbs w⟩,
   ⟨0x33, .indirectY, 8, fun w => .rlaIndY (lo w)⟩,
   ⟨0x37, .zeroPageX, 6, fun w => .rlaZpX (lo w)⟩,
   ⟨0x3B, .absoluteY, 7, fun w => .rlaAbsY w⟩,
   ⟨0x3F, .absoluteX, 7, fun w => .rlaAbsX w⟩]
/-- R353. -/
def sreForms : List Form :=
  [⟨0x43, .indirectX, 8, fun w => .sreIndX (lo w)⟩,
   ⟨0x47, .zeroPage, 5, fun w => .sreZp (lo w)⟩,
   ⟨0x4F, .absolute, 6, fun w => .sreAbs w⟩,
   ⟨0x53, .indirectY, 8, fun w => .sreIndY (lo w)⟩,
   ⟨0x57, .zeroPageX, 6, fun w => .sreZpX (lo w)⟩,
   ⟨0x5B, .absoluteY, 7, fun w => .sreAbsY w⟩,
   ⟨0x5F, .absoluteX, 7, fun w => .sreAbsX w⟩]
/-- R354. -/
def rraForms : List Form :=
  [⟨0x63, .indirectX, 8, fun w => .rraIndX (lo w)⟩,
   ⟨0x67, .zeroPage, 5, fun w => .rraZp (lo w)⟩,
   ⟨0x6F, .absolute, 6, fun w => .rraAbs w⟩,
   ⟨0x73, .indirectY, 8, fun w => .rraIndY (lo w)⟩,
   ⟨0x77, .zeroPageX, 6, fun w => .rraZpX (lo w)⟩,
   ⟨0x7B, .absoluteY, 7, fun w => .rraAbsY w⟩,
   ⟨0x7F, .absoluteX, 7, fun w => .rraAbsX w⟩]
/-- R357. -/
def dcpForms : List Form :=
  [⟨0xC3, .indirectX, 8, fun w => .dcpIndX (lo w)⟩,
   ⟨0xC7, .zeroPage, 5, fun w => .dcpZp (lo w)⟩,
   ⟨0xCF, .absolute, 6, fun w => .dcpAbs w⟩,
   ⟨0xD3, .indirectY, 8, fun w => .dcpIndY (lo w)⟩,
   ⟨0xD7, .zeroPageX, 6, fun w => .dcpZpX (lo w)⟩,
   ⟨0xDB, .absoluteY, 7, fun w => .dcpAbsY w⟩,
   ⟨0xDF, .absoluteX, 7, fun w => .dcpAbsX w⟩]
/-- R358. -/
def iscForms : List Form :=
  [⟨0xE3, .indirectX, 8, fun w => .iscIndX (lo w)⟩,
   ⟨0xE7, .zeroPage, 5, fun w => .iscZp (lo w)⟩,
   ⟨0xEF, .absolute, 6, fun w => .iscAbs w⟩,
   ⟨0xF3, .indirectY, 8, fun w => .iscIndY (lo w)⟩,
   ⟨0xF7, .zeroPageX, 6, fun w => .iscZpX (lo w)⟩,
   ⟨0xFB, .absoluteY, 7, fun w => .iscAbsY w⟩,
   ⟨0xFF, .absoluteX, 7, fun w => .iscAbsX w⟩]
/-- R355. -/
def saxForms : List Form :=
  [⟨0x83, .indirectX, 6, fun w => .saxIndX (lo w)⟩,
   ⟨0x87, .zeroPage, 3, fun w => .saxZp (lo w)⟩,
   ⟨0x8F, .absolute, 4, fun w => .saxAbs w⟩,
   ⟨0x97, .zeroPageY, 4, fun w => .saxZpY (lo w)⟩]
/-- R356. -/
def laxForms : List Form :=
  [⟨0xA3, .indirectX, 6, fun w => .laxIndX (lo w)⟩,
   ⟨0xA7, .zeroPage, 3, fun w => .laxZp (lo w)⟩,
   ⟨0xAF, .absolute, 4, fun w => .laxAbs w⟩,
   ⟨0xB3, .indirectY, 5, fun w => .laxIndY (lo w)⟩,
   ⟨0xB7, .zeroPageY, 4, fun w => .laxZpY (lo w)⟩,
   ⟨0xBF, .absoluteY, 4, fun w => .laxAbsY w⟩]
/-- R370. -/
def lasForms : List Form :=
  [⟨0xBB, .absoluteY, 4, fun w => .lasAbsY w⟩]
/-- R359. -/
def ancForms : List Form :=
  [⟨0x0B, .immediate, 2, fun w => .ancImm0B (lo w)⟩,
   ⟨0x2B, .immediate, 2, fun w => .ancImm2B (lo w)⟩]
/-- R371, the forms with an operand. -/
def nopReadForms : List Form :=
  [⟨0x04, .zeroPage, 3, fun w => .nopZp04 (lo w)⟩,
   ⟨0x0C, .absolute, 4, fun w => .nopAbs w⟩,
   ⟨0x14, .zeroPageX, 4, fun w => .nopZpX14 (lo w)⟩,
   ⟨0x1C, .absoluteX, 4, fun w => .nopAbsX1C w⟩,
   ⟨0x34, .zeroPageX, 4, fun w => .nopZpX34 (lo w)⟩,
   ⟨0x3C, .absoluteX, 4, fun w => .nopAbsX3C w⟩,
   ⟨0x44, .zeroPage, 3, fun w => .nopZp44 (lo w)⟩,
   ⟨0x54, .zeroPageX, 4, fun w => .nopZpX54 (lo w)⟩,
   ⟨0x5C, .absoluteX, 4, fun w => .nopAbsX5C w⟩,
   ⟨0x64, .zeroPage, 3, fun w => .nopZp64 (lo w)⟩,
   ⟨0x74, .zeroPageX, 4, fun w => .nopZpX74 (lo w)⟩,
   ⟨0x7C, .absoluteX, 4, fun w => .nopAbsX7C w⟩,
   ⟨0x80, .immediate, 2, fun w => .nopImm80 (lo w)⟩,
   ⟨0x82, .immediate, 2, fun w => .nopImm82 (lo w)⟩,
   ⟨0x89, .immediate, 2, fun w => .nopImm89 (lo w)⟩,
   ⟨0xC2, .immediate, 2, fun w => .nopImmC2 (lo w)⟩,
   ⟨0xD4, .zeroPageX, 4, fun w => .nopZpXD4 (lo w)⟩,
   ⟨0xDC, .absoluteX, 4, fun w => .nopAbsXDC w⟩,
   ⟨0xE2, .immediate, 2, fun w => .nopImmE2 (lo w)⟩,
   ⟨0xF4, .zeroPageX, 4, fun w => .nopZpXF4 (lo w)⟩,
   ⟨0xFC, .absoluteX, 4, fun w => .nopAbsXFC w⟩]
/-- R371, the implied forms. -/
def nopIdleForms : List Form :=
  [⟨0x1A, .implied, 2, fun _ => .nop1A⟩,
   ⟨0x3A, .implied, 2, fun _ => .nop3A⟩,
   ⟨0x5A, .implied, 2, fun _ => .nop5A⟩,
   ⟨0x7A, .implied, 2, fun _ => .nop7A⟩,
   ⟨0xDA, .implied, 2, fun _ => .nopDA⟩,
   ⟨0xFA, .implied, 2, fun _ => .nopFA⟩]
/-- R366. -/
def shaForms : List Form :=
  [⟨0x93, .indirectY, 6, fun w => .shaIndY (lo w)⟩,
   ⟨0x9F, .absoluteY, 5, fun w => .shaAbsY w⟩]
/-- R372. -/
def jamForms : List Form :=
  [⟨0x02, .implied, 2, fun _ => .jam02⟩,
   ⟨0x12, .implied, 2, fun _ => .jam12⟩,
   ⟨0x22, .implied, 2, fun _ => .jam22⟩,
   ⟨0x32, .implied, 2, fun _ => .jam32⟩,
   ⟨0x42, .implied, 2, fun _ => .jam42⟩,
   ⟨0x52, .implied, 2, fun _ => .jam52⟩,
   ⟨0x62, .implied, 2, fun _ => .jam62⟩,
   ⟨0x72, .implied, 2, fun _ => .jam72⟩,
   ⟨0x92, .implied, 2, fun _ => .jam92⟩,
   ⟨0xB2, .implied, 2, fun _ => .jamB2⟩,
   ⟨0xD2, .implied, 2, fun _ => .jamD2⟩,
   ⟨0xF2, .implied, 2, fun _ => .jamF2⟩]

/-! ### The arithmetic of 43_alu.md on exact integers -/

/-- R250. -/
def sumOf (a m : Byte) (c : Bool) : AluResult :=
  let r := BitVec.ofNat 8 (a.toNat + m.toNat + c.toNat)
  { r := r
    c := decide (255 < a.toNat + m.toNat + c.toNat)
    v := ((~~~(a ^^^ m)) &&& (a ^^^ r)).getLsbD 7
    n := decide (128 ≤ r.toNat)
    z := decide (r = 0) }

/-- R252: `a - m - (1 - c)`. -/
def differenceOf (a m : Byte) (c : Bool) : AluResult :=
  let d : Int := a.toNat - m.toNat - (1 - c.toNat)
  let r := BitVec.ofInt 8 d
  { r := r
    c := decide (0 ≤ d)
    v := ((a ^^^ m) &&& (a ^^^ r)).getLsbD 7
    n := decide (128 ≤ r.toNat)
    z := decide (r = 0) }

/-- R251, the digits taken by division. -/
def decimalSumOf (a m : Byte) (c : Bool) : AluResult :=
  let al0 := a.toNat % 16 + m.toNat % 16 + c.toNat
  let al := if 10 ≤ al0 then (al0 + 6) % 16 + 16 else al0
  let s := a.toNat / 16 * 16 + m.toNat / 16 * 16 + al
  let ss : Int := (BitVec.ofNat 8 (a.toNat / 16 * 16)).toInt + (BitVec.ofNat 8 (m.toNat / 16 * 16)).toInt + al
  let s' := if 160 ≤ s then s + 96 else s
  { r := BitVec.ofNat 8 s'
    c := decide (256 ≤ s')
    v := decide (ss < -128 ∨ 127 < ss)
    n := decide (s / 128 % 2 = 1)
    z := decide ((a.toNat + m.toNat + c.toNat) % 256 = 0) }

/-- R253. -/
def decimalDifferenceOf (a m : Byte) (c : Bool) : AluResult :=
  let al0 : Int := (a.toNat % 16 : Nat) - (m.toNat % 16 : Nat) + c.toNat - 1
  let al : Int := if al0 < 0 then (al0 - 6) % 16 - 16 else al0
  let s : Int := (a.toNat / 16 * 16 : Nat) - (m.toNat / 16 * 16 : Nat) + al
  let s' : Int := if s < 0 then s - 96 else s
  { differenceOf a m c with r := BitVec.ofInt 8 s' }

/-- A and the four flags from a result (R254, R255). -/
def withResult (q : AluResult) (r : Regs) : Regs :=
  { r with a := q.r, p := { r.p with c := q.c, v := q.v, n := q.n, z := q.z } }

/-- ADC (R254). -/
def adcEffect (cfg : Config) (m : Byte) (r : Regs) : Regs :=
  withResult (if cfg.decimalMode = true ∧ r.p.d = true then decimalSumOf r.a m r.p.c else sumOf r.a m r.p.c) r

/-- SBC (R255). -/
def sbcEffect (cfg : Config) (m : Byte) (r : Regs) : Regs :=
  withResult (if cfg.decimalMode = true ∧ r.p.d = true then decimalDifferenceOf r.a m r.p.c else differenceOf r.a m r.p.c) r

/-- The flags of a comparison (R259). -/
def compareEffect (x m : Byte) (r : Regs) : Regs :=
  { r with p := { r.p with
      c := decide (m.toNat ≤ x.toNat), z := decide (x = m), n := decide (128 ≤ (x.toNat + 256 - m.toNat) % 256) } }

/-- C from the bit shifted out, N and Z from the byte shifted (R286 to R289). -/
def shiftFlags (v : Byte) (out : Bool) (r : Regs) : Regs := { r with p := { withNZ v r.p with c := out } }

/-- R286. -/
def aslOf (m : Byte) : Byte := BitVec.ofNat 8 (2 * m.toNat)

/-- R287. -/
def lsrOf (m : Byte) : Byte := BitVec.ofNat 8 (m.toNat / 2)

/-- R288. -/
def rolOf (m : Byte) (c : Bool) : Byte := BitVec.ofNat 8 (2 * m.toNat + c.toNat)

/-- R289. -/
def rorOf (m : Byte) (c : Bool) : Byte := BitVec.ofNat 8 (m.toNat / 2 + 128 * c.toNat)

/-- Bit 7 of a byte, shifted out to the left. -/
def topBit (m : Byte) : Bool := decide (128 ≤ m.toNat)

/-- Bit 0 of a byte, shifted out to the right. -/
def lowBit (m : Byte) : Bool := decide (m.toNat % 2 = 1)

/-- A and N, Z from a byte. -/
def intoA (v : Byte) (r : Regs) : Regs := { r with a := v, p := withNZ v r.p }

/-- ARR in binary mode (R361). -/
def arrBinaryEffect (m : Byte) (r : Regs) : Regs :=
  let v := rorOf (r.a &&& m) r.p.c
  let bit6 := decide (v.toNat / 64 % 2 = 1)
  let bit5 := decide (v.toNat / 32 % 2 = 1)
  { r with a := v, p := { withNZ v r.p with c := bit6, v := bit6 ^^ bit5 } }

/-- ARR in decimal mode (R361). -/
def arrDecimalEffect (m : Byte) (r : Regs) : Regs :=
  let t := r.a &&& m
  let v := rorOf t r.p.c
  let low : Nat := if 5 < t.toNat % 16 + t.toNat % 2 then v.toNat / 16 * 16 + (v.toNat + 6) % 16 else v.toNat
  let carry := decide (5 < t.toNat / 16 + t.toNat / 16 % 2)
  { r with
    a := BitVec.ofNat 8 (if carry = true then low + 96 else low)
    p := { r.p with n := r.p.c, z := decide (v = 0), v := decide (t.toNat / 64 % 2 ≠ v.toNat / 64 % 2), c := carry } }

/-! ### Machine-level notions -/

/-- The condition of a branch (R307 to R314). -/
def branchTaken (op : Operation) (p : Status) : Prop :=
  match op with
  | .BPL => p.n = false
  | .BMI => p.n = true
  | .BVC => p.v = false
  | .BVS => p.v = true
  | .BCC => p.c = false
  | .BCS => p.c = true
  | .BNE => p.z = false
  | .BEQ => p.z = true
  | _ => False

/-- `k` bus cycles' worth of input samples (R402, R403, R406), the lines of the coming ticks taken in order. -/
def sampledTimes : Nat → State → State
  | 0, s => s
  | k + 1, s => sampledTimes k s.arrive

/-- What a call of a hook handler carries: the address, read or write, the byte of a write. -/
def callShape (c : HookCall) : Word × Bool × Option Byte := (c.addr, c.isRead, if c.isRead then none else some c.data)

/-- What a bus cycle carries, in the same terms. -/
def cycleShape (c : BusCycle) : Word × Bool × Option Byte := (c.addr, c.read, if c.read then none else some c.data)

/-- The lines rise somewhere in the list, seen from the level before it. -/
def risesFrom : Bool → List Bool → Prop
  | _, [] => False
  | before, l :: ls => (before = false ∧ l = true) ∨ risesFrom l ls

/-- The outstanding cycle of a running sequence is the one its table has at the cycle index. -/
def Outstanding (s : State) : Prop :=
  s.t ≠ 0 → ∃ r c, s.rows[s.t - 1]? = some r ∧ s.lastBus = some c ∧ c.read = r.value.isNone

/-- A number below 100 in two decimal digits. -/
def bcd (n : Nat) : Byte := BitVec.ofNat 8 (n / 10 * 16 + n % 10)

end Sys2Proof.Claims

open Sys2Proof Sys2Proof.Machine Sys2Proof.Claims

/-! ## Encoding and decoding -/

/-- Every instruction's bytes decode to it, whatever follows them (R140, R141, R142, R147). -/
def Obligations.DecodeOfEncode : Prop := ∀ (i : Instr) (rest : List Byte), decode (encode i ++ rest) = .ok (i, rest)

/-- What decodes is exactly the encoding of what it decodes to (R140, R144). -/
def Obligations.EncodeOfDecode : Prop :=
  ∀ (bytes : List Byte) (i : Instr) (rest : List Byte), decode bytes = .ok (i, rest) → bytes = encode i ++ rest

/-- The opcode byte alone gives the length; every byte string that is long enough decodes, a shorter one never (R148, R144). -/
def Obligations.LengthFromOpcode : Prop :=
  ∀ (opcode : Byte) (rest : List Byte),
    (descriptor opcode).length = 1 + (descriptor opcode).mode.operandBytes ∧
    ((descriptor opcode).length ≤ 1 + rest.length →
      ∃ i, decode (opcode :: rest) = .ok (i, rest.drop (descriptor opcode).mode.operandBytes) ∧ i.opcode = opcode) ∧
    (1 + rest.length < (descriptor opcode).length → ∃ missing, decode (opcode :: rest) = .error (.truncated missing))

/-- The table: each byte has its own descriptor, the penalty flag is R146's, and the counts are those of R149 and R150. -/
def Obligations.TableShape : Prop :=
  (∀ b : Byte, (descriptor b).opcode = b ∧
    (descriptor b).penalty = (decide ((descriptor b).access = .read) && indexedBase (descriptor b).mode)) ∧
  descriptorTable.length = 256 ∧ (descriptorTable.filter (fun d => d.illegal)).length = 105 ∧
  (descriptorTable.filter (fun d => d.access = .jam)).length = 12 ∧
  (descriptorTable.filter (fun d => d.illegal && d.op = .NOP)).length = 27 ∧
  (descriptorTable.filter (fun d => d.illegal && d.access = .readModifyWrite)).length = 42

/-- A few words written out from R141 and R147: LDA #, STA zp, JMP abs, ROL A, INC abs,X, LDA (zp),Y, BRK, BNE, SHY, JAM. -/
def Obligations.KnownWords : Prop :=
  decode [0xA9, 0x80] = .ok (.ldaImm 0x80, []) ∧ decode [0x85, 0x10] = .ok (.staZp 0x10, []) ∧
  decode [0x4C, 0x34, 0x12] = .ok (.jmpAbs 0x1234, []) ∧ decode [0x2A] = .ok (.rolAcc, []) ∧
  decode [0xFE, 0x00, 0x03] = .ok (.incAbsX 0x0300, []) ∧ decode [0xB1, 0xFF] = .ok (.ldaIndY 0xFF, []) ∧
  decode [0x00, 0xEA] = .ok (.brk, [0xEA]) ∧ decode [0xD0, 0xFC] = .ok (.bne 0xFC, []) ∧
  decode [0x9C, 0xFF, 0x32] = .ok (.shyAbsX 0x32FF, []) ∧ decode [0xF2] = .ok (.jamF2, [])

/-! ## Steps -/

/-- When the next step fetches and the array holds instruction `i` at PC, the step is `exec i` at the state in which the fetches have
been made; and whatever the fetches read, from a hook too, the step is `exec` of one instruction after its fetches (R35, R172, R405). One
step for a whole instruction is the model's choice (entry 1). -/
def Obligations.StepRunsDecoded : Prop :=
  (∀ (s : State) (i : Instr), FetchesNext s → HoldsAtPc i s → ∃ u, step s = exec i u ∧ Fetches i s u) ∧
  (∀ s : State, FetchesNext s → ∃ i u, step s = exec i u ∧ Fetches i s u)

/-- No state stops a step, and no instruction its meaning: there is no fault and no refusal (R11, R400). -/
def Obligations.NothingStops : Prop :=
  (∀ s, ∃ t, step s = .next t) ∧ ∀ i s, ∃ t, exec i s = .next t

/-- The reset sequence: from a boundary with `res_pending` (jammed, or not inhibited) it lowers S by 3, sets I, loads PC from the reset
vector, leaves the jammed state, writes nothing, and changes nothing else (R450, R451). -/
def Obligations.ResetSequence : Prop :=
  ∀ s : State, s.t = 0 → s.lastBus ≠ none → s.ctl.resPending = true →
    (s.seq = .jammed ∨ (s.seq = .instr ∧ s.ctl.inhibit = false)) →
    ∃ t, step s = .next t ∧
      t.regs = { s.regs with
        s := s.regs.s - 3, pc := pair t.latch.adh t.latch.adl, p := { s.regs.p with i := true } } ∧
      (s.Plain 0xFFFC → t.latch.adl = s.peek 0xFFFC) ∧ (s.Plain 0xFFFD → t.latch.adh = s.peek 0xFFFD) ∧
      SameMemory s t ∧ t.seq = .instr ∧ t.t = 0 ∧ t.ctl.inhibit = true ∧ FetchesNext t ∧ t.hooks = s.hooks ∧ t.cfg = s.cfg ∧
      (s.NoWaits → AddsCycles s t (resetCycles s)) ∧
      ((∀ l ∈ s.inputs, l.res = false) → t.ctl.resPending = false) ∧
      ((∀ l ∈ s.inputs, l.nmi = false) → t.ctl.nmiPending = s.ctl.nmiPending)

/-- Taking an NMI, whatever I is, and taking an IRQ, I being clear and nothing of higher priority pending: from a boundary that is not
inhibited (R401, R405, R406, R411, R413, R414). -/
def Obligations.InterruptEntry : Prop :=
  ∀ s : State, s.t = 0 → s.seq = .instr → s.lastBus ≠ none → s.ctl.inhibit = false → s.ctl.resPending = false →
    (s.ctl.nmiPending = true →
      ∃ t, step s = .next t ∧ Enters 0xFFFA false s t ∧
        (s.NoWaits → AddsCycles s t (.fetch s.regs.pc :: .read s.regs.pc :: entryCycles 0xFFFA false s)) ∧
        ((∀ l ∈ s.inputs, l.nmi = false) → t.ctl.nmiPending = false)) ∧
    (s.ctl.nmiPending = false → s.ctl.irqLine = true → s.regs.p.i = false →
      ∃ t, step s = .next t ∧ Enters 0xFFFE false s t ∧
        (s.NoWaits → AddsCycles s t (.fetch s.regs.pc :: .read s.regs.pc :: entryCycles 0xFFFE false s)))

/-- A jammed tick: without a pending reset the core reads 0xFFFF and stays jammed, whatever NMI and IRQ are (R56, R372, R418). -/
def Obligations.JammedTick : Prop :=
  ∀ s : State, s.t = 0 → s.seq = .jammed → s.lastBus ≠ none → s.ctl.resPending = false →
    ∃ t, step s = .next t ∧ t.seq = .jammed ∧ t.t = 0 ∧ t.regs = s.regs ∧ SameMemory s t ∧ t.hooks = s.hooks ∧ t.cfg = s.cfg ∧
      t.ctl.inhibit = s.ctl.inhibit ∧ (s.ctl.nmiPending = true → t.ctl.nmiPending = true) ∧
      (s.NoWaits → AddsCycles s t [.read 0xFFFF])

/-- A pending NMI or reset is lost in no step but the one that starts its sequence (R408). -/
def Obligations.PendingIsKept : Prop :=
  ∀ s t : State, s.t = 0 → s.lastBus ≠ none → step s = .next t →
    (s.ctl.nmiPending = true → t.ctl.nmiPending = false →
      s.seq ≠ .jammed ∧ s.ctl.inhibit = false ∧ s.ctl.resPending = false) ∧
    (s.ctl.resPending = true → t.ctl.resPending = false → s.seq = .jammed ∨ s.ctl.inhibit = false)

/-- NMI and RES are recognised once per rising edge: after any sequence of samples the latch is set exactly when it was set before or
the line rose somewhere in the sequence (R402, R403). -/
def Obligations.EdgeDetection : Prop :=
  ∀ (ls : List Lines) (s : State),
    let t := ls.foldl (fun u l => u.sample l) s
    (t.ctl.nmiPending = true ↔ s.ctl.nmiPending = true ∨ risesFrom s.ctl.nmiPrev (ls.map Lines.nmi)) ∧
    (t.ctl.resPending = true ↔ s.ctl.resPending = true ∨ risesFrom s.ctl.resPrev (ls.map Lines.res)) ∧
    t.ctl.nmiPrev = (ls.map Lines.nmi).getLastD s.ctl.nmiPrev ∧ t.ctl.resPrev = (ls.map Lines.res).getLastD s.ctl.resPrev

/-- Every bus cycle of a step is followed by exactly one sampling of the input lines, wait ticks included, and the latches change in
no other way after the boundary decision, but for `inhibit` (R91, R93, R402, R403, R406). -/
def Obligations.SampledOncePerCycle : Prop :=
  ∀ s t : State, s.t = 0 → s.lastBus ≠ none → step s = .next t →
    let n := t.trace.length - s.trace.length
    let u := sampledTimes n s.boundary.2
    0 < n ∧ t.inputs = u.inputs ∧ t.ctl = { u.ctl with inhibit := t.ctl.inhibit }

/-- The state after reset is well kept. -/
def Obligations.InvAtReset : Prop := State.reset.Inv

/-- Every step keeps the backing array canonical, the parameters and the hooks legal, and ends between sequences (R404). -/
def Obligations.InvKeptByStep : Prop := ∀ s t : State, s.Inv → step s = .next t → t.Inv

/-- Power-on: with any parameters, memory, hooks and inputs the first step is the reset sequence; after it A = X = Y = 0, S = 0xFD,
P = 0x24 and PC is the word at the reset vector (R452, R454); and State.reset is what that step gives on this hardware: the model's
choice of reset state (entry 2), the latches the spec gives no value included (entry 6). -/
def Obligations.PowerOnReset : Prop :=
  (∀ (cfg : Config) (m : Memory) (hs : List HookRange) (ins : List Lines),
    let s := { State.powerOnWith cfg with mem := m, hooks := hs, inputs := ins }
    ∃ t, step s = .next t ∧ t.regs.a = 0 ∧ t.regs.x = 0 ∧ t.regs.y = 0 ∧ t.regs.s = 0xFD ∧ packP false t.regs.p = 0x24 ∧
      (s.Plain 0xFFFC → s.Plain 0xFFFD → t.regs.pc = pair (s.peek 0xFFFD) (s.peek 0xFFFC)) ∧ SameMemory s t ∧
      t.ctl.inhibit = true ∧ t.seq = .instr ∧ t.t = 0) ∧
  step State.powerOn = .next State.reset

/-- The step is the ticks: the system ticks of R97, as many as the step has bus cycles, lead from the first cycle of its sequence to the
first cycle of the next one (R6, R7, R91, R97). -/
def Obligations.TicksRefineStep : Prop :=
  ∀ s t : State, s.t = 0 → (s.seq = .instr ∨ s.seq = .jammed) → s.lastBus ≠ none → step s = .next t →
    systemTicks (t.trace.length - s.trace.length) s.openSequence = t.openSequence

/-- Stopping between two ticks loses nothing: a step from any point inside the sequence completes it to the same state (R96).
That `step` completes a sequence left in the middle is the model's choice (entry 20). -/
def Obligations.StepResumesSequence : Prop :=
  ∀ s t : State, s.t = 0 → (s.seq = .instr ∨ s.seq = .jammed) → s.lastBus ≠ none → step s = .next t →
    ∀ k, k < t.trace.length - s.trace.length → step (systemTicks k s.openSequence) = .next t

/-- The cycle-count law: an instruction takes its descriptor's base cycles, one more for a page crossing of the read class, one more
for a taken branch and another if its target is in another page (R194, R146, R306). -/
def Obligations.CycleCountLaw : Prop :=
  ∀ (s : State) (i : Instr), FetchesNext s → HoldsAtPc i s → s.NoWaits → PointersPlain i.descriptor.mode (operandOf i) s →
    ∃ t, step s = .next t ∧
      (i.descriptor.access ≠ .branch → t.trace.length = s.trace.length + i.descriptor.cycles +
        (if i.descriptor.penalty = true ∧ pageCrossed i.descriptor.mode (operandOf i) s = true then 1 else 0)) ∧
      (i.descriptor.access = .branch →
        (¬ branchTaken i.descriptor.op s.regs.p → t.trace.length = s.trace.length + i.descriptor.cycles) ∧
        (branchTaken i.descriptor.op s.regs.p → t.trace.length = s.trace.length + i.descriptor.cycles + 1 +
          (if hi t.regs.pc = hi (s.regs.pc + 2) then 0 else 1)))

/-- SYNC is asserted in the first cycle of an instruction and of an IRQ or NMI sequence, and in no other cycle: not in a reset or jammed
cycle either (R88). -/
def Obligations.SyncLaw : Prop :=
  ∀ s t : State, s.t = 0 → s.lastBus ≠ none → s.NoWaits → step s = .next t →
    ∃ (rest : List BusCycle) (first : BusCycle), t.trace = rest ++ first :: s.trace ∧ (∀ c ∈ rest, c.sync = false) ∧
      (first.sync = true ↔ s.boundary.1 ≠ .reset ∧ s.boundary.1 ≠ .jammed)

/-- Every bus cycle reaches the memory map: the handlers are called for exactly the cycles at hooked addresses, dummy and repeated ones
included, in order, with the written byte (R109, R105, R473). -/
def Obligations.EveryCycleReachesHooks : Prop :=
  ∀ s t : State, s.t = 0 → step s = .next t →
    ∃ added, t.trace = added ++ s.trace ∧
      t.hookCalls.map callShape =
        (added.filter (fun c => (s.hookAt c.addr).isSome)).map cycleShape ++ s.hookCalls.map callShape

/-! ## The pins and the tick -/

/-- The round-trip law of the pin word (R86). -/
def Obligations.PinWordRoundTrip : Prop :=
  (∀ (address : Word) (data : Byte) (rw : Bool) (lines : PinWord),
    decodeAddress (encodePins address data rw lines) = address ∧ decodeData (encodePins address data rw lines) = data) ∧
  (∀ (p : PinWord) (d : Byte), decodeData (setData p d) = d ∧ decodeAddress (setData p d) = decodeAddress p)

/-- What a tick puts on the pins: the core's address, RW and SYNC, the byte of a write, on a read the D field of the input, the input
lines unchanged, and 0 in bits 31:30 (R88, R57). -/
def Obligations.TickOutput : Prop :=
  ∀ (s : State) (pinsIn : PinWord),
    let q := tick s pinsIn
    (∃ c, q.1.lastBus = some c ∧ decodeAddress q.2 = c.addr ∧ decodeData q.2 = c.data ∧ decodeRw q.2 = c.read ∧
      decodeSync q.2 = c.sync ∧ (c.read = true → c.data = decodeData pinsIn)) ∧
    decodeLines q.2 = decodeLines pinsIn ∧ q.2.getLsbD 30 = false ∧ q.2.getLsbD 31 = false

/-- RDY: after a read the core does not advance, it emits the same address, RW and SYNC again and only samples the inputs; after a write
RDY is ignored (R93). -/
def Obligations.RdyWaits : Prop :=
  (∀ (s : State) (d : Byte) (l : Lines) (c : BusCycle), s.t ≠ 0 → s.lastBus = some c → c.read = true → l.rdy = true →
    (s.clock d l).regs = s.regs ∧ (s.clock d l).latch = s.latch ∧ (s.clock d l).seq = s.seq ∧ (s.clock d l).t = s.t ∧
    (s.clock d l).mem = s.mem ∧ (s.clock d l).lastBus = some { c with data := d } ∧ (s.clock d l).ctl = (s.sample l).ctl) ∧
  (∀ (s : State) (d : Byte) (l : Lines) (c : BusCycle), s.t ≠ 0 → s.lastBus = some c → c.read = false →
    (s.clock d l).regs = (s.clock d { l with rdy := false }).regs ∧
    (s.clock d l).lastBus = (s.clock d { l with rdy := false }).lastBus ∧ (s.clock d l).t = (s.clock d { l with rdy := false }).t ∧
    (s.clock d l).seq = (s.clock d { l with rdy := false }).seq ∧ (s.clock d l).latch = (s.clock d { l with rdy := false }).latch)

/-- The D field of the input of a tick that follows a write cycle is ignored: registers, latches, sequence, controller, address, RW, SYNC
and a written byte come out the same for every D (R95). -/
def Obligations.DataIgnoredAfterWrite : Prop :=
  ∀ (s : State) (d d' : Byte) (l : Lines) (c : BusCycle), s.t ≠ 0 → Outstanding s → s.lastBus = some c → c.read = false →
    (s.clock d l).regs = (s.clock d' l).regs ∧ (s.clock d l).latch = (s.clock d' l).latch ∧
    (s.clock d l).seq = (s.clock d' l).seq ∧ (s.clock d l).t = (s.clock d' l).t ∧ (s.clock d l).ctl = (s.clock d' l).ctl ∧
    (s.clock d l).lastBus.map BusCycle.pins = (s.clock d' l).lastBus.map BusCycle.pins

/-- In every state the ticks reach, the outstanding bus cycle is the one the table has at the cycle index (R45, R91). -/
def Obligations.OutstandingKept : Prop :=
  (∀ (s : State) (d : Byte) (l : Lines), Outstanding s → Outstanding (s.clock d l)) ∧ Outstanding State.powerOn ∧
    Outstanding State.reset

/-- The snapshot at a tick that has just emitted cycle 1 of an instruction, IRQ or NMI sequence: the registers after everything before,
PC the address on the bus, the status byte with bit 5 = 1 and bit 4 = 0 (R59). -/
def Obligations.SnapshotAtFetch : Prop :=
  ∀ s : State, s.t = 0 → s.boundary.1 ≠ .reset → s.boundary.1 ≠ .jammed →
    s.openSequence.snapshot =
      { a := s.regs.a, x := s.regs.x, y := s.regs.y, s := s.regs.s, pc := s.regs.pc, p := packP false s.regs.p }

/-! ## The memory map -/

/-- Mirror coherence: a write through one address of a region is read back through every other address of the same backing byte (R103). -/
def Obligations.MirrorCoherence : Prop :=
  ∀ (s : State) (m : MirrorRegion) (a b : Word) (v : Byte), s.cfg.wellFormed = true → Memory.wf s.mem = true →
    m ∈ s.cfg.mirrors → m.low ≤ a → a ≤ m.high → m.low ≤ b → b ≤ m.high →
    (a.toNat - m.low.toNat) % m.size = (b.toNat - m.low.toNat) % m.size → s.Plain a → s.Plain b →
    ((s.accessWrite a v).accessRead b).dbus = v

/-- The default configuration: the first 8 KiB are four windows on 2 KiB, every other address is direct, and there is no hook (R104). -/
def Obligations.DefaultMap : Prop :=
  (∀ s : State, s.cfg = Config.standard →
    (∀ a : Word, a.toNat < 0x2000 → s.peek a = Memory.get s.mem (a &&& 0x07FF).toNat) ∧
    (∀ a : Word, 0x2000 ≤ a.toNat → s.peek a = Memory.get s.mem a.toNat)) ∧
  (∀ a : Word, State.powerOn.Plain a) ∧ State.powerOn.cfg = Config.standard

/-- Resolution: a hook wins over mirror and array, its handler receives the untranslated address and the array is neither read nor
written under it; without a hook the first mirror region that covers the address gives the index, else the address itself
(R101). -/
def Obligations.Resolution : Prop :=
  (∀ (s : State) (a : Word) (v : Byte) (h : HookRange), s.hookAt a = some h →
    h ∈ s.hooks ∧ h.low ≤ a ∧ a ≤ h.high ∧
    (s.accessRead a).mem = s.mem ∧ (s.accessWrite a v).mem = s.mem ∧
    (s.accessRead a).hookCalls = { handler := h.handler, addr := a, isRead := true, data := s.dbus } :: s.hookCalls ∧
    (s.accessWrite a v).hookCalls = { handler := h.handler, addr := a, isRead := false, data := v } :: s.hookCalls) ∧
  (∀ (s : State) (a : Word) (v : Byte), s.hookAt a = none →
    (∀ h ∈ s.hooks, ¬ (h.low ≤ a ∧ a ≤ h.high)) ∧
    (s.accessRead a).hookCalls = s.hookCalls ∧ (s.accessWrite a v).hookCalls = s.hookCalls ∧ (s.accessRead a).mem = s.mem ∧
    (s.accessRead a).dbus = Memory.get s.mem (mirrorIndex s.cfg.mirrors a).toNat ∧
    (s.accessWrite a v).mem = Memory.set s.mem (mirrorIndex s.cfg.mirrors a).toNat v) ∧
  (∀ (mirrors : List MirrorRegion) (a : Word), (∀ m ∈ mirrors, ¬ (m.low ≤ a ∧ a ≤ m.high)) → mirrorIndex mirrors a = a) ∧
  (∀ (mirrors : List MirrorRegion) (m : MirrorRegion) (a : Word), mirrorsDisjoint mirrors = true →
    (∀ m ∈ mirrors, m.wellFormed = true) → m ∈ mirrors → m.low ≤ a → a ≤ m.high →
    (mirrorIndex mirrors a).toNat = m.base.toNat + (a.toNat - m.low.toNat) % m.size)

/-- The byte a hook answers: nothing but the calls made so far, this one included, and the number of bus cycles decide it; it is a free
value (R105), and this form of it is the model's choice (entry 4). -/
def Obligations.HookAnswers : Prop :=
  (∀ (s : State) (a : Word) (h : HookRange), s.hookAt a = some h →
    (s.accessRead a).dbus = Config.hookRead (s.accessRead a).hookCalls s.trace.length) ∧
  (∀ (s t : State) (a : Word) (h : HookRange), s.hookAt a = some h → t.hookAt a = some h → s.hookCalls = t.hookCalls →
    s.trace.length = t.trace.length → s.dbus = t.dbus → (s.accessRead a).dbus = (t.accessRead a).dbus)

/-- Registering a hook: rejected, with nothing changed, exactly when the range is empty or overlaps a registered one; else added, and the
hooks stay legal (R106). What becomes of an empty range is the model's choice (entry 12). -/
def Obligations.RegisterHook : Prop :=
  ∀ (s : State) (low high : Word) (handler : Nat), hooksWellFormed s.hooks = true →
    let h : HookRange := { low := low, high := high, handler := handler }
    ((low ≤ high ∧ ∀ k ∈ s.hooks, ¬ (low ≤ k.high ∧ k.low ≤ high)) →
      ∃ t, s.registerHook low high handler = .ok t ∧ t = { s with hooks := s.hooks ++ [h] } ∧ hooksWellFormed t.hooks = true) ∧
    ((low ≤ high ∧ ∃ k ∈ s.hooks, low ≤ k.high ∧ k.low ≤ high) → s.registerHook low high handler = .error .overlap) ∧
    (high < low → s.registerHook low high handler = .error .emptyRange)

/-- Loading a program: too large or unavailable fails and copies nothing; else every byte is at the mirror-resolved index of its address
(of two bytes with one index the later one), every other byte and everything else is unchanged, and no hook is called (R115). -/
def Obligations.ProgramLoad : Prop :=
  ∀ (s : State) (base : Word) (bytes : List Byte), Memory.wf s.mem = true →
    s.load none base = .error .notFound ∧
    (65536 < base.toNat + bytes.length → s.load (some bytes) base = .error .tooLarge) ∧
    (base.toNat + bytes.length ≤ 65536 →
      ∃ t, s.load (some bytes) base = .ok t ∧ t = { s with mem := t.mem } ∧ Memory.wf t.mem = true ∧
        (∀ k, k < bytes.length →
          (∀ j, k < j → j < bytes.length → s.Apart (base + BitVec.ofNat 16 j) (base + BitVec.ofNat 16 k)) →
          t.peek (base + BitVec.ofNat 16 k) = bytes.getD k 0) ∧
        (∀ a, (∀ k, k < bytes.length → s.Apart a (base + BitVec.ofNat 16 k)) → t.peek a = s.peek a))

/-- The backing array: a byte reads back as stored, every other byte is untouched, the canonical form is kept, and equal contents are
equal lists (R100, R108, R118). -/
def Obligations.BackingArray : Prop :=
  (∀ (m : Memory) (w w' : Word) (v : Byte), Memory.wf m = true →
    Memory.wf (Memory.set m w.toNat v) = true ∧
    Memory.get (Memory.set m w.toNat v) w'.toNat = if w' = w then v else Memory.get m w'.toNat) ∧
  (∀ m n : Memory, Memory.wf m = true → Memory.wf n = true → (∀ w : Word, Memory.get m w.toNat = Memory.get n w.toNat) → m = n) ∧
  (∀ w : Word, Memory.get [] w.toNat = 0)

/-! ## Status and arithmetic -/

/-- The status byte: PackP and UnpackP bit by bit, and each undoes the other up to bits 5 and 4 (R39, R37, R38). -/
def Obligations.StatusByte : Prop :=
  (∀ (b : Bool) (p : Status), (packP b p).toNat = 128 * p.n.toNat + 64 * p.v.toNat + 32 + 16 * b.toNat + 8 * p.d.toNat +
    4 * p.i.toNat + 2 * p.z.toNat + p.c.toNat ∧ unpackP (packP b p) = p) ∧
  (∀ (b : Bool) (v : Byte), packP b (unpackP v) = (v &&& 0xCF) ||| 0x20 ||| (if b = true then 0x10 else 0))

/-- Binary addition and subtraction on exact integers; V of an addition is exactly the signed result out of range (R250, R252). -/
def Obligations.BinaryArithmetic : Prop :=
  ∀ (a m : Byte) (c : Bool),
    binaryAdd a m c = sumOf a m c ∧ binarySub a m c = differenceOf a m c ∧
    ((binaryAdd a m c).v = true ↔ a.toInt + m.toInt + c.toNat < -128 ∨ 127 < a.toInt + m.toInt + c.toNat) ∧
    binarySub a m c = binaryAdd a (m ^^^ 0xFF) c

/-- The NMOS decimal addition and subtraction, on digits, for every operand, valid BCD or not (R251, R253). -/
def Obligations.DecimalArithmetic : Prop :=
  ∀ (a m : Byte) (c : Bool), decimalAdd a m c = decimalSumOf a m c ∧ decimalSub a m c = decimalDifferenceOf a m c

/-- On valid BCD operands the decimal results are the decimal sum and difference modulo 100, with the decimal carry; a consequence of the
formulas of R251 and R253 that the spec does not state. -/
def Obligations.DecimalMeaning : Prop :=
  ∀ (x y : Nat) (c : Bool), x < 100 → y < 100 →
    (decimalAdd (bcd x) (bcd y) c).r = bcd ((x + y + c.toNat) % 100) ∧
    ((decimalAdd (bcd x) (bcd y) c).c = true ↔ 100 ≤ x + y + c.toNat) ∧
    (decimalSub (bcd x) (bcd y) c).r = bcd ((x + 100 + c.toNat - 1 - y) % 100) ∧
    ((decimalSub (bcd x) (bcd y) c).c = true ↔ y + 1 ≤ x + c.toNat)

/-! ## Instructions -/

/-- LDA, LDX, LDY: the register takes the byte read, N and Z follow it (R220, R221, R222). -/
def Obligations.Loads : Prop :=
  (∀ f ∈ ldaForms, ReadForm .LDA false (fun _ m r => intoA m r) f) ∧
  (∀ f ∈ ldxForms, ReadForm .LDX false (fun _ m r => { r with x := m, p := withNZ m r.p }) f) ∧
  (∀ f ∈ ldyForms, ReadForm .LDY false (fun _ m r => { r with y := m, p := withNZ m r.p }) f)

/-- STA, STX, STY and SAX: the register, or A AND X, is stored; no register and no flag changes (R223, R224, R225, R355). -/
def Obligations.StoresOfRegisters : Prop :=
  (∀ f ∈ staForms, WriteForm .STA false (fun r => r.a) f) ∧ (∀ f ∈ stxForms, WriteForm .STX false (fun r => r.x) f) ∧
  (∀ f ∈ styForms, WriteForm .STY false (fun r => r.y) f) ∧ (∀ f ∈ saxForms, WriteForm .SAX true (fun r => r.a &&& r.x) f)

/-- TAX, TAY, TXA, TYA, TSX set N and Z from the byte moved; TXS sets no flag (R226 to R231). -/
def Obligations.Transfers : Prop :=
  InternalForm .TAX false (fun r => { r with x := r.a, p := withNZ r.a r.p }) ⟨0xAA, .implied, 2, fun _ => .tax⟩ ∧
  InternalForm .TAY false (fun r => { r with y := r.a, p := withNZ r.a r.p }) ⟨0xA8, .implied, 2, fun _ => .tay⟩ ∧
  InternalForm .TXA false (fun r => { r with a := r.x, p := withNZ r.x r.p }) ⟨0x8A, .implied, 2, fun _ => .txa⟩ ∧
  InternalForm .TYA false (fun r => { r with a := r.y, p := withNZ r.y r.p }) ⟨0x98, .implied, 2, fun _ => .tya⟩ ∧
  InternalForm .TSX false (fun r => { r with x := r.s, p := withNZ r.s r.p }) ⟨0xBA, .implied, 2, fun _ => .tsx⟩ ∧
  InternalForm .TXS false (fun r => { r with s := r.x }) ⟨0x9A, .implied, 2, fun _ => .txs⟩

/-- PHA and PHP: the byte (for PHP the status with B = 1 and bit 5 = 1) goes to the stack address, S goes down by one within page 1, no
other register and no flag changes (R240, R241, R34). -/
def Obligations.Pushes : Prop :=
  (Encoded ⟨0x48, .implied, 3, fun _ => .pha⟩ .PHA .stackControl false ∧
    Encoded ⟨0x08, .implied, 3, fun _ => .php⟩ .PHP .stackControl false) ∧
  (∀ s : State, ∃ t, exec .pha s = .next t ∧ t.regs = { s.regs with s := s.regs.s - 1 } ∧
    Stores (0x0100 ||| zext s.regs.s) s.regs.a s t ∧ KeepsRest s t ∧
    (s.NoWaits → AddsCycles s t [.read s.regs.pc, .write (0x0100 ||| zext s.regs.s) s.regs.a])) ∧
  (∀ s : State, ∃ t, exec .php s = .next t ∧ t.regs = { s.regs with s := s.regs.s - 1 } ∧
    Stores (0x0100 ||| zext s.regs.s) (packP true s.regs.p) s t ∧ KeepsRest s t ∧
    (s.NoWaits → AddsCycles s t [.read s.regs.pc, .write (0x0100 ||| zext s.regs.s) (packP true s.regs.p)]))

/-- PLA and PLP: S goes up by one within page 1, the byte there becomes A with N and Z, or the six stored flags with bits 5 and 4
ignored; memory does not change (R242, R243, R34). -/
def Obligations.Pulls : Prop :=
  (Encoded ⟨0x68, .implied, 4, fun _ => .pla⟩ .PLA .stackControl false ∧
    Encoded ⟨0x28, .implied, 4, fun _ => .plp⟩ .PLP .stackControl false) ∧
  (∀ s : State, ∃ t, exec .pla s = .next t ∧
    t.regs = { s.regs with a := t.latch.dl, s := s.regs.s + 1, p := withNZ t.latch.dl s.regs.p } ∧
    (s.Plain (0x0100 ||| zext (s.regs.s + 1)) → t.latch.dl = s.peek (0x0100 ||| zext (s.regs.s + 1))) ∧
    SameMemory s t ∧ KeepsRest s t ∧
    (s.NoWaits → AddsCycles s t
      [.read s.regs.pc, .read (0x0100 ||| zext s.regs.s), .read (0x0100 ||| zext (s.regs.s + 1))])) ∧
  (∀ s : State, ∃ t, exec .plp s = .next t ∧
    t.regs = { s.regs with s := s.regs.s + 1, p := {
      n := topBit t.latch.dl, v := decide (t.latch.dl.toNat / 64 % 2 = 1), d := decide (t.latch.dl.toNat / 8 % 2 = 1),
      i := decide (t.latch.dl.toNat / 4 % 2 = 1), z := decide (t.latch.dl.toNat / 2 % 2 = 1), c := lowBit t.latch.dl } } ∧
    (s.Plain (0x0100 ||| zext (s.regs.s + 1)) → t.latch.dl = s.peek (0x0100 ||| zext (s.regs.s + 1))) ∧
    SameMemory s t ∧ KeepsRest s t ∧
    (s.NoWaits → AddsCycles s t
      [.read s.regs.pc, .read (0x0100 ||| zext s.regs.s), .read (0x0100 ||| zext (s.regs.s + 1))]))

/-- ADC, SBC and USBC in binary and, where DECIMAL_MODE and D are set, in decimal mode: A and N, V, Z, C (R254, R255, R365). -/
def Obligations.AddSubtract : Prop :=
  (∀ f ∈ adcForms, ReadForm .ADC false adcEffect f) ∧ (∀ f ∈ sbcForms, ReadForm .SBC false sbcEffect f) ∧
  (∀ f ∈ usbcForms, ReadForm .USBC true sbcEffect f)

/-- AND, ORA, EOR: A and N, Z (R256, R257, R258). -/
def Obligations.Logic : Prop :=
  (∀ f ∈ andForms, ReadForm .AND false (fun _ m r => intoA (r.a &&& m) r) f) ∧
  (∀ f ∈ oraForms, ReadForm .ORA false (fun _ m r => intoA (r.a ||| m) r) f) ∧
  (∀ f ∈ eorForms, ReadForm .EOR false (fun _ m r => intoA (r.a ^^^ m) r) f)

/-- CMP, CPX, CPY set N, Z, C and nothing else; BIT sets Z from A AND m and N, V from bits 7 and 6 of the byte itself
(R259 to R263). -/
def Obligations.Compares : Prop :=
  (∀ f ∈ cmpForms, ReadForm .CMP false (fun _ m r => compareEffect r.a m r) f) ∧
  (∀ f ∈ cpxForms, ReadForm .CPX false (fun _ m r => compareEffect r.x m r) f) ∧
  (∀ f ∈ cpyForms, ReadForm .CPY false (fun _ m r => compareEffect r.y m r) f) ∧
  (∀ f ∈ bitForms, ReadForm .BIT false (fun _ m r => { r with p := { r.p with
    z := decide (r.a &&& m = 0), n := topBit m, v := decide (m.toNat / 64 % 2 = 1) } }) f)

/-- INC, DEC on memory and INX, INY, DEX, DEY: one more or less modulo 256, N and Z of the result (R280 to R285). -/
def Obligations.IncrementDecrement : Prop :=
  (∀ f ∈ incForms, RmwForm .INC false (fun m _ => m + 1) (fun _ m r => { r with p := withNZ (m + 1) r.p }) f) ∧
  (∀ f ∈ decForms, RmwForm .DEC false (fun m _ => m - 1) (fun _ m r => { r with p := withNZ (m - 1) r.p }) f) ∧
  InternalForm .INX false (fun r => { r with x := r.x + 1, p := withNZ (r.x + 1) r.p }) ⟨0xE8, .implied, 2, fun _ => .inx⟩ ∧
  InternalForm .INY false (fun r => { r with y := r.y + 1, p := withNZ (r.y + 1) r.p }) ⟨0xC8, .implied, 2, fun _ => .iny⟩ ∧
  InternalForm .DEX false (fun r => { r with x := r.x - 1, p := withNZ (r.x - 1) r.p }) ⟨0xCA, .implied, 2, fun _ => .dex⟩ ∧
  InternalForm .DEY false (fun r => { r with y := r.y - 1, p := withNZ (r.y - 1) r.p }) ⟨0x88, .implied, 2, fun _ => .dey⟩

/-- ASL, LSR, ROL, ROR on memory and on A (R286 to R289, R174). -/
def Obligations.ShiftsAndRotates : Prop :=
  (∀ f ∈ aslForms, RmwForm .ASL false (fun m _ => aslOf m) (fun _ m r => shiftFlags (aslOf m) (topBit m) r) f) ∧
  (∀ f ∈ lsrForms, RmwForm .LSR false (fun m _ => lsrOf m) (fun _ m r => shiftFlags (lsrOf m) (lowBit m) r) f) ∧
  (∀ f ∈ rolForms, RmwForm .ROL false (fun m r => rolOf m r.p.c) (fun _ m r => shiftFlags (rolOf m r.p.c) (topBit m) r) f) ∧
  (∀ f ∈ rorForms, RmwForm .ROR false (fun m r => rorOf m r.p.c) (fun _ m r => shiftFlags (rorOf m r.p.c) (lowBit m) r) f) ∧
  InternalForm .ASL false (fun r => { shiftFlags (aslOf r.a) (topBit r.a) r with a := aslOf r.a })
    ⟨0x0A, .accumulator, 2, fun _ => .aslAcc⟩ ∧
  InternalForm .LSR false (fun r => { shiftFlags (lsrOf r.a) (lowBit r.a) r with a := lsrOf r.a })
    ⟨0x4A, .accumulator, 2, fun _ => .lsrAcc⟩ ∧
  InternalForm .ROL false (fun r => { shiftFlags (rolOf r.a r.p.c) (topBit r.a) r with a := rolOf r.a r.p.c })
    ⟨0x2A, .accumulator, 2, fun _ => .rolAcc⟩ ∧
  InternalForm .ROR false (fun r => { shiftFlags (rorOf r.a r.p.c) (lowBit r.a) r with a := rorOf r.a r.p.c })
    ⟨0x6A, .accumulator, 2, fun _ => .rorAcc⟩

/-- JMP: to the operand, or to the word at the pointer, whose high byte is read in the pointer's own page (R300, R301, R186). -/
def Obligations.Jumps : Prop :=
  (Encoded ⟨0x4C, .absolute, 3, fun w => .jmpAbs w⟩ .JMP .stackControl false ∧
    Encoded ⟨0x6C, .indirect, 5, fun w => .jmpInd w⟩ .JMP .stackControl false) ∧
  (∀ (w : Word) (s : State), ∃ t, exec (.jmpAbs w) s = .next t ∧ t.regs = { s.regs with pc := w } ∧ SameMemory s t ∧
    KeepsRest s t ∧ AddsCycles s t []) ∧
  (∀ (h l : Byte) (s : State), ∃ t, exec (.jmpInd (pair h l)) s = .next t ∧
    t.regs = { s.regs with pc := pair t.latch.adh t.latch.adl } ∧
    (s.Plain (pair h l) → t.latch.adl = s.peek (pair h l)) ∧
    (s.Plain (pair h (l + 1)) → t.latch.adh = s.peek (pair h (l + 1))) ∧ SameMemory s t ∧ KeepsRest s t ∧
    (s.NoWaits → AddsCycles s t [.read (pair h l), .read (pair h (l + 1))]))

/-- JSR, with PC at its last byte: PC is pushed high byte first, the high target byte is read after the pushes. RTS: PC is the pulled word
plus one, S goes up by two. No flag changes (R302, R303). -/
def Obligations.Subroutines : Prop :=
  (Encoded ⟨0x20, .absolute, 6, fun w => .jsr w⟩ .JSR .stackControl false ∧
    Encoded ⟨0x60, .implied, 6, fun _ => .rts⟩ .RTS .stackControl false) ∧
  (∀ (w : Word) (s : State), ∃ t, exec (.jsr w) s = .next t ∧
    t.regs = { s.regs with s := s.regs.s - 2, pc := pair t.latch.dl (lo w) } ∧
    (s.Plain s.regs.pc → t.latch.dl = t.peek s.regs.pc) ∧
    t.mem = ((s.stored (0x0100 ||| zext s.regs.s) (hi s.regs.pc)).stored (0x0100 ||| zext (s.regs.s - 1)) (lo s.regs.pc)).mem ∧
    (∀ a, s.Apart a (0x0100 ||| zext s.regs.s) → s.Apart a (0x0100 ||| zext (s.regs.s - 1)) → t.peek a = s.peek a) ∧
    KeepsRest s t ∧
    (s.NoWaits → AddsCycles s t [.read (0x0100 ||| zext s.regs.s), .write (0x0100 ||| zext s.regs.s) (hi s.regs.pc),
      .write (0x0100 ||| zext (s.regs.s - 1)) (lo s.regs.pc), .read s.regs.pc])) ∧
  (∀ s : State, ∃ t, exec .rts s = .next t ∧
    t.regs = { s.regs with s := s.regs.s + 2, pc := pair t.latch.adh t.latch.adl + 1 } ∧
    (s.Plain (0x0100 ||| zext (s.regs.s + 1)) → t.latch.adl = s.peek (0x0100 ||| zext (s.regs.s + 1))) ∧
    (s.Plain (0x0100 ||| zext (s.regs.s + 2)) → t.latch.adh = s.peek (0x0100 ||| zext (s.regs.s + 2))) ∧
    SameMemory s t ∧ KeepsRest s t ∧
    (s.NoWaits → AddsCycles s t [.read s.regs.pc, .read (0x0100 ||| zext s.regs.s), .read (0x0100 ||| zext (s.regs.s + 1)),
      .read (0x0100 ||| zext (s.regs.s + 2)), .read (pair t.latch.adh t.latch.adl)]))

/-- RTI: the status byte (bits 5 and 4 ignored), then PC low, then PC high are pulled; PC is the pulled word; the interrupt controller is
untouched but for its sampling (R304, R416). -/
def Obligations.InterruptReturn : Prop :=
  Encoded ⟨0x40, .implied, 6, fun _ => .rti⟩ .RTI .stackControl false ∧
  ∀ s : State, ∃ t p, exec .rti s = .next t ∧
    t.regs = { s.regs with s := s.regs.s + 3, pc := pair t.latch.adh t.latch.adl, p := unpackP p } ∧
    (s.Plain (0x0100 ||| zext (s.regs.s + 1)) → p = s.peek (0x0100 ||| zext (s.regs.s + 1))) ∧
    (s.Plain (0x0100 ||| zext (s.regs.s + 2)) → t.latch.adl = s.peek (0x0100 ||| zext (s.regs.s + 2))) ∧
    (s.Plain (0x0100 ||| zext (s.regs.s + 3)) → t.latch.adh = s.peek (0x0100 ||| zext (s.regs.s + 3))) ∧
    SameMemory s t ∧ KeepsRest s t ∧
    (s.NoWaits → AddsCycles s t [.read s.regs.pc, .read (0x0100 ||| zext s.regs.s), .read (0x0100 ||| zext (s.regs.s + 1)),
      .read (0x0100 ||| zext (s.regs.s + 2)), .read (0x0100 ||| zext (s.regs.s + 3))])

/-- BRK, with PC at its padding byte: the address after the padding byte and the status with B = 1 are pushed, I is set, PC is loaded from
0xFFFE, `inhibit` is set (R305). -/
def Obligations.SoftwareInterrupt : Prop :=
  Encoded ⟨0x00, .implied, 7, fun _ => .brk⟩ .BRK .stackControl false ∧
  ∀ s : State, ∃ t, exec .brk s = .next t ∧ Enters 0xFFFE true (s.setPc (s.regs.pc + 1)) t ∧
    (s.NoWaits → AddsCycles s t (.read s.regs.pc :: entryCycles 0xFFFE true (s.setPc (s.regs.pc + 1))))

/-- The eight branches (R306 to R314, R193). -/
def Obligations.Branches : Prop :=
  BranchForm .BPL (fun p => p.n = false) ⟨0x10, .relative, 2, fun w => .bpl (lo w)⟩ ∧
  BranchForm .BMI (fun p => p.n = true) ⟨0x30, .relative, 2, fun w => .bmi (lo w)⟩ ∧
  BranchForm .BVC (fun p => p.v = false) ⟨0x50, .relative, 2, fun w => .bvc (lo w)⟩ ∧
  BranchForm .BVS (fun p => p.v = true) ⟨0x70, .relative, 2, fun w => .bvs (lo w)⟩ ∧
  BranchForm .BCC (fun p => p.c = false) ⟨0x90, .relative, 2, fun w => .bcc (lo w)⟩ ∧
  BranchForm .BCS (fun p => p.c = true) ⟨0xB0, .relative, 2, fun w => .bcs (lo w)⟩ ∧
  BranchForm .BNE (fun p => p.z = false) ⟨0xD0, .relative, 2, fun w => .bne (lo w)⟩ ∧
  BranchForm .BEQ (fun p => p.z = true) ⟨0xF0, .relative, 2, fun w => .beq (lo w)⟩

/-- CLC, SEC, CLI, SEI, CLD, SED, CLV write their one flag; NOP and every undocumented NOP write nothing, those with an operand making
every cycle of their mode, the operand read included (R330 to R337, R371). -/
def Obligations.FlagsAndNop : Prop :=
  InternalForm .CLC false (fun r => { r with p := { r.p with c := false } }) ⟨0x18, .implied, 2, fun _ => .clc⟩ ∧
  InternalForm .SEC false (fun r => { r with p := { r.p with c := true } }) ⟨0x38, .implied, 2, fun _ => .sec⟩ ∧
  InternalForm .CLI false (fun r => { r with p := { r.p with i := false } }) ⟨0x58, .implied, 2, fun _ => .cli⟩ ∧
  InternalForm .SEI false (fun r => { r with p := { r.p with i := true } }) ⟨0x78, .implied, 2, fun _ => .sei⟩ ∧
  InternalForm .CLD false (fun r => { r with p := { r.p with d := false } }) ⟨0xD8, .implied, 2, fun _ => .cld⟩ ∧
  InternalForm .SED false (fun r => { r with p := { r.p with d := true } }) ⟨0xF8, .implied, 2, fun _ => .sed⟩ ∧
  InternalForm .CLV false (fun r => { r with p := { r.p with v := false } }) ⟨0xB8, .implied, 2, fun _ => .clv⟩ ∧
  InternalForm .NOP false (fun r => r) ⟨0xEA, .implied, 2, fun _ => .nop⟩ ∧
  (∀ f ∈ nopIdleForms, InternalForm .NOP true (fun r => r) f) ∧
  (∀ f ∈ nopReadForms, ReadForm .NOP true (fun _ _ r => r) f)

/-- SLO, RLA, SRE, RRA, DCP, ISC: the shift, decrement or increment on memory, then the accumulator operation with its result
(R351 to R354, R357, R358). -/
def Obligations.CombinedRmw : Prop :=
  (∀ f ∈ sloForms, RmwForm .SLO true (fun m _ => aslOf m)
    (fun _ m r => { intoA (r.a ||| aslOf m) r with p := { withNZ (r.a ||| aslOf m) r.p with c := topBit m } }) f) ∧
  (∀ f ∈ rlaForms, RmwForm .RLA true (fun m r => rolOf m r.p.c)
    (fun _ m r => { intoA (r.a &&& rolOf m r.p.c) r with
      p := { withNZ (r.a &&& rolOf m r.p.c) r.p with c := topBit m } }) f) ∧
  (∀ f ∈ sreForms, RmwForm .SRE true (fun m _ => lsrOf m)
    (fun _ m r => { intoA (r.a ^^^ lsrOf m) r with p := { withNZ (r.a ^^^ lsrOf m) r.p with c := lowBit m } }) f) ∧
  (∀ f ∈ rraForms, RmwForm .RRA true (fun m r => rorOf m r.p.c)
    (fun cfg m r => adcEffect cfg (rorOf m r.p.c) { r with p := { r.p with c := lowBit m } }) f) ∧
  (∀ f ∈ dcpForms, RmwForm .DCP true (fun m _ => m - 1) (fun _ m r => compareEffect r.a (m - 1) r) f) ∧
  (∀ f ∈ iscForms, RmwForm .ISC true (fun m _ => m + 1) (fun cfg m r => sbcEffect cfg (m + 1) r) f)

/-- LAX and LAS, and the immediate combinations ANC, ALR, ARR (binary and decimal), ANE, LXA, SBX (R356, R370, R359 to R364). -/
def Obligations.CombinedReads : Prop :=
  (∀ f ∈ laxForms, ReadForm .LAX true (fun _ m r => { r with a := m, x := m, p := withNZ m r.p }) f) ∧
  (∀ f ∈ lasForms, ReadForm .LAS true (fun _ m r =>
    { r with a := m &&& r.s, x := m &&& r.s, s := m &&& r.s, p := withNZ (m &&& r.s) r.p }) f) ∧
  (∀ f ∈ ancForms, ReadForm .ANC true (fun _ m r =>
    { r with a := r.a &&& m, p := { withNZ (r.a &&& m) r.p with c := topBit (r.a &&& m) } }) f) ∧
  ReadForm .ALR true (fun _ m r =>
    { r with a := lsrOf (r.a &&& m), p := { withNZ (lsrOf (r.a &&& m)) r.p with c := lowBit (r.a &&& m) } })
    ⟨0x4B, .immediate, 2, fun w => .alrImm (lo w)⟩ ∧
  ReadForm .ARR true (fun cfg m r =>
    if cfg.decimalMode = true ∧ r.p.d = true then arrDecimalEffect m r else arrBinaryEffect m r)
    ⟨0x6B, .immediate, 2, fun w => .arrImm (lo w)⟩ ∧
  ReadForm .ANE true (fun cfg m r => intoA ((r.a ||| cfg.aneMagic) &&& r.x &&& m) r)
    ⟨0x8B, .immediate, 2, fun w => .aneImm (lo w)⟩ ∧
  ReadForm .LXA true (fun cfg m r => { intoA ((r.a ||| cfg.lxaMagic) &&& m) r with x := (r.a ||| cfg.lxaMagic) &&& m })
    ⟨0xAB, .immediate, 2, fun w => .lxaImm (lo w)⟩ ∧
  ReadForm .SBX true (fun _ m r =>
    { r with x := (r.a &&& r.x) - m,
             p := { withNZ ((r.a &&& r.x) - m) r.p with c := decide (m.toNat ≤ (r.a &&& r.x).toNat) } })
    ⟨0xCB, .immediate, 2, fun w => .sbxImm (lo w)⟩

/-- SHA, SHX, SHY and TAS (R366 to R369); TAS also moves S. -/
def Obligations.HighByteStores : Prop :=
  (∀ f ∈ shaForms, HighByteForm .SHA (fun r => r.a &&& r.x) (fun r => r) f) ∧
  HighByteForm .SHX (fun r => r.x) (fun r => r) ⟨0x9E, .absoluteY, 5, fun w => .shxAbsY w⟩ ∧
  HighByteForm .SHY (fun r => r.y) (fun r => r) ⟨0x9C, .absoluteX, 5, fun w => .shyAbsX w⟩ ∧
  HighByteForm .TAS (fun r => r.a &&& r.x) (fun r => { r with s := r.a &&& r.x }) ⟨0x9B, .absoluteY, 5, fun w => .tasAbsY w⟩

/-- JAM: one more read at PC, then the core is jammed; nothing else changes (R372, R56). -/
def Obligations.JamHalts : Prop :=
  ∀ f ∈ jamForms, Encoded f .JAM .jam true ∧
    ∀ (w : Word) (s : State), ∃ t, exec (f.instr w) s = .next t ∧ t.seq = .jammed ∧ t.regs = s.regs ∧ SameMemory s t ∧
      t.t = s.t ∧ t.hooks = s.hooks ∧ t.cfg = s.cfg ∧ t.ctl.inhibit = s.ctl.inhibit ∧
      (s.NoWaits → AddsCycles s t [.read s.regs.pc])

/-! ## Rules over all instructions -/

/-- Each flag is written only by the instructions of R40's table. -/
def Obligations.FlagWriters : Prop :=
  ∀ (i : Instr) (s t : State), exec i s = .next t →
    (i.descriptor.op ∉ ([.ADC, .SBC, .CMP, .CPX, .CPY, .ASL, .LSR, .ROL, .ROR, .CLC, .SEC, .PLP, .RTI, .SLO, .RLA, .SRE, .RRA,
      .DCP, .ISC, .ANC, .ALR, .ARR, .SBX, .USBC] : List Operation) → t.regs.p.c = s.regs.p.c) ∧
    (i.descriptor.op ∉ ([.ADC, .SBC, .AND, .ORA, .EOR, .CMP, .CPX, .CPY, .BIT, .INC, .DEC, .INX, .INY, .DEX, .DEY, .ASL, .LSR,
      .ROL, .ROR, .LDA, .LDX, .LDY, .TAX, .TAY, .TXA, .TYA, .TSX, .PLA, .PLP, .RTI, .SLO, .RLA, .SRE, .RRA, .LAX, .DCP, .ISC,
      .ANC, .ALR, .ARR, .ANE, .LXA, .SBX, .USBC, .LAS] : List Operation) →
        t.regs.p.z = s.regs.p.z ∧ t.regs.p.n = s.regs.p.n) ∧
    (i.descriptor.op ∉ ([.SEI, .CLI, .PLP, .RTI, .BRK] : List Operation) → t.regs.p.i = s.regs.p.i) ∧
    (i.descriptor.op ∉ ([.SED, .CLD, .PLP, .RTI] : List Operation) → t.regs.p.d = s.regs.p.d) ∧
    (i.descriptor.op ∉ ([.ADC, .SBC, .BIT, .CLV, .PLP, .RTI, .RRA, .ISC, .ARR, .USBC] : List Operation) →
      t.regs.p.v = s.regs.p.v)

/-- S is written only by TXS, LAS, TAS and the push and pull operations (R34), and only JAM jams (R372). -/
def Obligations.StackPointerWriters : Prop :=
  ∀ (i : Instr) (s t : State), exec i s = .next t →
    (i.descriptor.op ∉ ([.TXS, .LAS, .TAS, .PHA, .PHP, .PLA, .PLP, .JSR, .RTS, .RTI, .BRK] : List Operation) →
      t.regs.s = s.regs.s) ∧
    (i.descriptor.op ≠ .JAM → t.seq = s.seq) ∧ (i.descriptor.op ≠ .BRK → t.ctl.inhibit = s.ctl.inhibit)
end

