-- ==== Sys2Proof/Laws/Decode.lean ====
section
/-!
SUPPORT. The byte fields of a word, and the instruction table as a table.
-/

namespace Sys2Proof

theorem pair_toNat (h l : Byte) : (pair h l).toNat = h.toNat * 256 + l.toNat := by
  have hl : l.toNat < 2 ^ 8 := l.isLt
  simp only [pair, BitVec.toNat_append]
  rw [← Nat.shiftLeft_add_eq_or_of_lt hl, Nat.shiftLeft_eq]

theorem lo_toNat (w : Word) : (lo w).toNat = w.toNat % 256 := by
  simp [lo, BitVec.extractLsb'_toNat]

theorem hi_toNat (w : Word) : (hi w).toNat = w.toNat / 256 := by
  have h : w.toNat < 65536 := w.isLt
  simp only [hi, BitVec.extractLsb'_toNat, Nat.shiftRight_eq_div_pow, Nat.reducePow]
  omega

@[simp] theorem pair_hi_lo (w : Word) : pair (hi w) (lo w) = w := by
  apply BitVec.eq_of_toNat_eq
  rw [pair_toNat, lo_toNat, hi_toNat]
  omega

@[simp] theorem lo_pair (h l : Byte) : lo (pair h l) = l := by
  apply BitVec.eq_of_toNat_eq
  have := l.isLt
  rw [lo_toNat, pair_toNat]
  omega

@[simp] theorem hi_pair (h l : Byte) : hi (pair h l) = h := by
  apply BitVec.eq_of_toNat_eq
  have := l.isLt
  rw [hi_toNat, pair_toNat]
  omega

theorem zext_toNat (b : Byte) : (zext b).toNat = b.toNat := by
  have : b.toNat < 256 := b.isLt
  simp only [zext, BitVec.toNat_setWidth, Nat.reducePow]
  omega

@[simp] theorem lo_zext (b : Byte) : lo (zext b) = b := by
  apply BitVec.eq_of_toNat_eq
  have : b.toNat < 256 := b.isLt
  rw [lo_toNat, zext_toNat]
  omega

@[simp] theorem hi_zext (b : Byte) : hi (zext b) = 0#8 := by
  apply BitVec.eq_of_toNat_eq
  have : b.toNat < 256 := b.isLt
  rw [hi_toNat, zext_toNat]
  simp
  omega

@[simp] theorem pair_zero (b : Byte) : pair 0#8 b = zext b := by
  apply BitVec.eq_of_toNat_eq
  rw [pair_toNat, zext_toNat]
  simp

theorem descriptorTable_length : descriptorTable.length = 256 := by rw [descriptorTable, List.length_map, List.length_range]

/-- A statement about every byte is one about the numbers below 256. -/
theorem forall_byte {P : Byte → Prop} (h : ∀ k, k < 256 → P (BitVec.ofNat 8 k)) (b : Byte) : P b := by
  have hb := h b.toNat b.isLt
  rwa [BitVec.ofNat_toNat, BitVec.setWidth_eq] at hb

/-- Every byte of the table carries its own opcode. -/
theorem descriptor_opcode : ∀ b : Byte, (descriptor b).opcode = b := by decide

/-- The decoder keeps the opcode (R144). -/
theorem decodeOp_opcode (o b1 b2 : Byte) : (decodeOp o b1 b2).opcode = o := by
  refine forall_byte (P := fun o => (decodeOp o b1 b2).opcode = o) (fun k hk => ?_) o
  interval_cases k <;> rfl

end Sys2Proof
end

