-- ==== Sys2Proof/Laws/Memory.lean ====
section
/-!
SUPPORT. The backing array: what a read gives after a store, and that every store keeps the canonical form.
-/

namespace Sys2Proof.Machine

theorem Memory.get_set_other (m : Memory) (i j : Nat) (v : Byte) (h : j ≠ i) :
    Memory.get (Memory.set m i v) j = Memory.get m j := by
  induction m with
  | nil => by_cases hv : v = 0#8 <;> simp [Memory.set, Memory.get, hv, h]
  | cons c m ih =>
    obtain ⟨k, w⟩ := c
    simp only [Memory.set]
    split
    · split <;> simp [Memory.get, h]
    · split
      · next hik => subst hik; split <;> simp [Memory.get, h]
      · simp [Memory.get, ih]

/-- Nothing below the lower bound of a canonical list is listed. -/
theorem Memory.get_of_lt {m : Memory} {low i : Nat} (h : Memory.wfFrom low m = true) (hi : i < low) : Memory.get m i = 0 := by
  induction m generalizing low with
  | nil => rfl
  | cons c m ih =>
    obtain ⟨k, w⟩ := c
    simp only [Memory.wfFrom, Bool.and_eq_true, decide_eq_true_eq] at h
    have hk : i ≠ k := by omega
    simp only [Memory.get, if_neg hk]
    exact ih h.2 (by omega)

theorem Memory.get_set_same {m : Memory} {low : Nat} (h : Memory.wfFrom low m = true) (i : Nat) (v : Byte) :
    Memory.get (Memory.set m i v) i = v := by
  induction m generalizing low with
  | nil => by_cases hv : v = 0#8 <;> simp [Memory.set, Memory.get, hv]
  | cons c m ih =>
    obtain ⟨k, w⟩ := c
    have h' := h
    simp only [Memory.wfFrom, Bool.and_eq_true, decide_eq_true_eq] at h
    simp only [Memory.set]
    split
    · next hik =>
      split
      · next hv =>
        have hne : i ≠ k := by omega
        simp only [Memory.get, if_neg hne, hv]
        exact Memory.get_of_lt h.2 (by omega)
      · simp [Memory.get]
    · split
      · next _ hik =>
        subst hik
        split
        · next hv => rw [hv]; exact Memory.get_of_lt h.2 (Nat.lt_succ_self i)
        · simp [Memory.get]
      · next hne => simp only [Memory.get, if_neg hne]; exact ih h.2

theorem Memory.set_wfFrom {m : Memory} {low i : Nat} {v : Byte} (h : Memory.wfFrom low m = true) (hl : low ≤ i)
    (hi : i < 65536) : Memory.wfFrom low (Memory.set m i v) = true := by
  induction m generalizing low with
  | nil => by_cases hv : v = 0#8 <;> simp [Memory.set, Memory.wfFrom, hv, hl, hi]
  | cons c m ih =>
    obtain ⟨k, w⟩ := c
    have h' := h
    simp only [Memory.wfFrom, Bool.and_eq_true, decide_eq_true_eq] at h
    obtain ⟨⟨⟨hk, hk2⟩, hw⟩, hm⟩ := h
    simp only [Memory.set]
    split
    · next hik =>
      split
      · exact h'
      · next hv =>
        have : i + 1 ≤ k := hik
        have hv' : (v != 0) = true := bne_iff_ne.mpr hv
        simp only [Memory.wfFrom, hl, hi, hv', this, hk2, hm, hw, decide_true, Bool.and_self]
    · split
      · next _ hik =>
        subst hik
        split
        · next hv =>
          clear ih h'
          cases m with
          | nil => rfl
          | cons c m =>
            obtain ⟨k2, w2⟩ := c
            simp only [Memory.wfFrom, Bool.and_eq_true, decide_eq_true_eq] at hm ⊢
            exact ⟨⟨⟨by omega, hm.1.1.2⟩, hm.1.2⟩, hm.2⟩
        · next hv =>
          have hv' : (v != 0) = true := bne_iff_ne.mpr hv
          simp only [Memory.wfFrom, hl, hi, hv', hm, decide_true, Bool.and_self]
      · next h1 h2 =>
        have hki : k + 1 ≤ i := by omega
        simp only [Memory.wfFrom, hk, hk2, hw, ih hm hki, decide_true, Bool.and_self]

/-- Every store at an index of the array keeps the canonical form. -/
theorem Memory.set_wf {m : Memory} (h : Memory.wf m = true) (w : Word) (v : Byte) :
    Memory.wf (Memory.set m w.toNat v) = true :=
  Memory.set_wfFrom h (Nat.zero_le _) w.isLt

theorem Memory.get_set {m : Memory} (h : Memory.wf m = true) (i j : Nat) (v : Byte) :
    Memory.get (Memory.set m i v) j = if j = i then v else Memory.get m j := by
  split
  · next hji => subst hji; exact Memory.get_set_same h j v
  · next hji => exact Memory.get_set_other m i j v hji

theorem Memory.wfFrom_mono {m : Memory} {low low' : Nat} (h : Memory.wfFrom low m = true) (hl : low' ≤ low) :
    Memory.wfFrom low' m = true := by
  cases m with
  | nil => rfl
  | cons c m =>
    obtain ⟨k, w⟩ := c
    simp only [Memory.wfFrom, Bool.and_eq_true, decide_eq_true_eq] at h ⊢
    exact ⟨⟨⟨by omega, h.1.1.2⟩, h.1.2⟩, h.2⟩

/-- The canonical form is canonical: lists with the same bytes are the same list. -/
theorem Memory.ext_of_wf {m n : Memory} {low : Nat} (hm : Memory.wfFrom low m = true) (hn : Memory.wfFrom low n = true)
    (h : ∀ i, Memory.get m i = Memory.get n i) : m = n := by
  induction m generalizing low n with
  | nil =>
    cases n with
    | nil => rfl
    | cons c n =>
      obtain ⟨k, w⟩ := c
      have hk := h k
      simp [Memory.wfFrom] at hn
      simp [Memory.get] at hk
      exact absurd hk.symm hn.1.2
  | cons c m ih =>
    obtain ⟨k, w⟩ := c
    cases n with
    | nil =>
      have hk := h k
      simp [Memory.wfFrom] at hm
      simp [Memory.get] at hk
      exact absurd hk hm.1.2
    | cons d n =>
      obtain ⟨j, x⟩ := d
      simp only [Memory.wfFrom, Bool.and_eq_true, decide_eq_true_eq, bne_iff_ne, ne_eq] at hm hn
      have hkj : k = j := by
        rcases Nat.lt_trichotomy k j with hlt | heq | hgt
        · have hk := h k
          have hne : k ≠ j := by omega
          rw [Memory.get, if_pos rfl, Memory.get, if_neg hne, Memory.get_of_lt hn.2 (by omega)] at hk
          exact absurd hk hm.1.2
        · exact heq
        · have hk := h j
          have hne : j ≠ k := by omega
          rw [Memory.get, if_neg hne, Memory.get_of_lt hm.2 (by omega), Memory.get, if_pos rfl] at hk
          exact absurd hk.symm hn.1.2
      subst hkj
      have hwx : w = x := by simpa [Memory.get] using h k
      subst hwx
      congr 1
      refine ih hm.2 hn.2 fun i => ?_
      by_cases hik : i = k
      · subst hik
        rw [Memory.get_of_lt hm.2 (Nat.lt_succ_self i), Memory.get_of_lt hn.2 (Nat.lt_succ_self i)]
      · simpa [Memory.get, hik] using h i

end Sys2Proof.Machine
end

