-- ==== Sys2Proof/Laws/State.lean ====
section
/-!
SUPPORT. One lemma per field per named update of the state, each true by definition, so that no later proof unfolds a record update.
-/

namespace Sys2Proof.Machine

/-! ### drive -/

section
variable (s : State) (c : BusCycle)

@[simp] theorem drive_regs : (s.drive c).regs = s.regs := rfl
@[simp] theorem drive_latch : (s.drive c).latch = s.latch := rfl
@[simp] theorem drive_seq : (s.drive c).seq = s.seq := rfl
@[simp] theorem drive_t : (s.drive c).t = s.t := rfl
@[simp] theorem drive_ctl : (s.drive c).ctl = s.ctl := rfl
@[simp] theorem drive_lastBus : (s.drive c).lastBus = some c := rfl
@[simp] theorem drive_dbus : (s.drive c).dbus = s.dbus := rfl
@[simp] theorem drive_mem : (s.drive c).mem = s.mem := rfl
@[simp] theorem drive_hooks : (s.drive c).hooks = s.hooks := rfl
@[simp] theorem drive_hookCalls : (s.drive c).hookCalls = s.hookCalls := rfl
@[simp] theorem drive_cfg : (s.drive c).cfg = s.cfg := rfl
@[simp] theorem drive_inputs : (s.drive c).inputs = s.inputs := rfl
@[simp] theorem drive_trace : (s.drive c).trace = c :: s.trace := rfl

end

/-! ### latchDl -/

section
variable (s : State)

@[simp] theorem latchDl_regs : (s.latchDl).regs = s.regs := rfl
@[simp] theorem latchDl_latch : (s.latchDl).latch = { s.latch with dl := s.dbus } := rfl
@[simp] theorem latchDl_seq : (s.latchDl).seq = s.seq := rfl
@[simp] theorem latchDl_t : (s.latchDl).t = s.t := rfl
@[simp] theorem latchDl_ctl : (s.latchDl).ctl = s.ctl := rfl
@[simp] theorem latchDl_lastBus : (s.latchDl).lastBus = s.lastBus := rfl
@[simp] theorem latchDl_dbus : (s.latchDl).dbus = s.dbus := rfl
@[simp] theorem latchDl_mem : (s.latchDl).mem = s.mem := rfl
@[simp] theorem latchDl_hooks : (s.latchDl).hooks = s.hooks := rfl
@[simp] theorem latchDl_hookCalls : (s.latchDl).hookCalls = s.hookCalls := rfl
@[simp] theorem latchDl_cfg : (s.latchDl).cfg = s.cfg := rfl
@[simp] theorem latchDl_inputs : (s.latchDl).inputs = s.inputs := rfl
@[simp] theorem latchDl_trace : (s.latchDl).trace = s.trace := rfl

end

/-! ### onRegs -/

section
variable (s : State) (f : Regs → Regs)

@[simp] theorem onRegs_regs : (s.onRegs f).regs = f s.regs := rfl
@[simp] theorem onRegs_latch : (s.onRegs f).latch = s.latch := rfl
@[simp] theorem onRegs_seq : (s.onRegs f).seq = s.seq := rfl
@[simp] theorem onRegs_t : (s.onRegs f).t = s.t := rfl
@[simp] theorem onRegs_ctl : (s.onRegs f).ctl = s.ctl := rfl
@[simp] theorem onRegs_lastBus : (s.onRegs f).lastBus = s.lastBus := rfl
@[simp] theorem onRegs_dbus : (s.onRegs f).dbus = s.dbus := rfl
@[simp] theorem onRegs_mem : (s.onRegs f).mem = s.mem := rfl
@[simp] theorem onRegs_hooks : (s.onRegs f).hooks = s.hooks := rfl
@[simp] theorem onRegs_hookCalls : (s.onRegs f).hookCalls = s.hookCalls := rfl
@[simp] theorem onRegs_cfg : (s.onRegs f).cfg = s.cfg := rfl
@[simp] theorem onRegs_inputs : (s.onRegs f).inputs = s.inputs := rfl
@[simp] theorem onRegs_trace : (s.onRegs f).trace = s.trace := rfl

end

/-! ### setPc -/

section
variable (s : State) (w : Word)

@[simp] theorem setPc_regs : (s.setPc w).regs = { s.regs with pc := w } := rfl
@[simp] theorem setPc_latch : (s.setPc w).latch = s.latch := rfl
@[simp] theorem setPc_seq : (s.setPc w).seq = s.seq := rfl
@[simp] theorem setPc_t : (s.setPc w).t = s.t := rfl
@[simp] theorem setPc_ctl : (s.setPc w).ctl = s.ctl := rfl
@[simp] theorem setPc_lastBus : (s.setPc w).lastBus = s.lastBus := rfl
@[simp] theorem setPc_dbus : (s.setPc w).dbus = s.dbus := rfl
@[simp] theorem setPc_mem : (s.setPc w).mem = s.mem := rfl
@[simp] theorem setPc_hooks : (s.setPc w).hooks = s.hooks := rfl
@[simp] theorem setPc_hookCalls : (s.setPc w).hookCalls = s.hookCalls := rfl
@[simp] theorem setPc_cfg : (s.setPc w).cfg = s.cfg := rfl
@[simp] theorem setPc_inputs : (s.setPc w).inputs = s.inputs := rfl
@[simp] theorem setPc_trace : (s.setPc w).trace = s.trace := rfl

end

/-! ### incPc -/

section
variable (s : State)

@[simp] theorem incPc_regs : (s.incPc).regs = { s.regs with pc := s.regs.pc + 1 } := rfl
@[simp] theorem incPc_latch : (s.incPc).latch = s.latch := rfl
@[simp] theorem incPc_seq : (s.incPc).seq = s.seq := rfl
@[simp] theorem incPc_t : (s.incPc).t = s.t := rfl
@[simp] theorem incPc_ctl : (s.incPc).ctl = s.ctl := rfl
@[simp] theorem incPc_lastBus : (s.incPc).lastBus = s.lastBus := rfl
@[simp] theorem incPc_dbus : (s.incPc).dbus = s.dbus := rfl
@[simp] theorem incPc_mem : (s.incPc).mem = s.mem := rfl
@[simp] theorem incPc_hooks : (s.incPc).hooks = s.hooks := rfl
@[simp] theorem incPc_hookCalls : (s.incPc).hookCalls = s.hookCalls := rfl
@[simp] theorem incPc_cfg : (s.incPc).cfg = s.cfg := rfl
@[simp] theorem incPc_inputs : (s.incPc).inputs = s.inputs := rfl
@[simp] theorem incPc_trace : (s.incPc).trace = s.trace := rfl

end

/-! ### decS -/

section
variable (s : State)

@[simp] theorem decS_regs : (s.decS).regs = { s.regs with s := s.regs.s - 1 } := rfl
@[simp] theorem decS_latch : (s.decS).latch = s.latch := rfl
@[simp] theorem decS_seq : (s.decS).seq = s.seq := rfl
@[simp] theorem decS_t : (s.decS).t = s.t := rfl
@[simp] theorem decS_ctl : (s.decS).ctl = s.ctl := rfl
@[simp] theorem decS_lastBus : (s.decS).lastBus = s.lastBus := rfl
@[simp] theorem decS_dbus : (s.decS).dbus = s.dbus := rfl
@[simp] theorem decS_mem : (s.decS).mem = s.mem := rfl
@[simp] theorem decS_hooks : (s.decS).hooks = s.hooks := rfl
@[simp] theorem decS_hookCalls : (s.decS).hookCalls = s.hookCalls := rfl
@[simp] theorem decS_cfg : (s.decS).cfg = s.cfg := rfl
@[simp] theorem decS_inputs : (s.decS).inputs = s.inputs := rfl
@[simp] theorem decS_trace : (s.decS).trace = s.trace := rfl

end

/-! ### incS -/

section
variable (s : State)

@[simp] theorem incS_regs : (s.incS).regs = { s.regs with s := s.regs.s + 1 } := rfl
@[simp] theorem incS_latch : (s.incS).latch = s.latch := rfl
@[simp] theorem incS_seq : (s.incS).seq = s.seq := rfl
@[simp] theorem incS_t : (s.incS).t = s.t := rfl
@[simp] theorem incS_ctl : (s.incS).ctl = s.ctl := rfl
@[simp] theorem incS_lastBus : (s.incS).lastBus = s.lastBus := rfl
@[simp] theorem incS_dbus : (s.incS).dbus = s.dbus := rfl
@[simp] theorem incS_mem : (s.incS).mem = s.mem := rfl
@[simp] theorem incS_hooks : (s.incS).hooks = s.hooks := rfl
@[simp] theorem incS_hookCalls : (s.incS).hookCalls = s.hookCalls := rfl
@[simp] theorem incS_cfg : (s.incS).cfg = s.cfg := rfl
@[simp] theorem incS_inputs : (s.incS).inputs = s.inputs := rfl
@[simp] theorem incS_trace : (s.incS).trace = s.trace := rfl

end

/-! ### setI -/

section
variable (s : State)

@[simp] theorem setI_regs : (s.setI).regs = { s.regs with p := { s.regs.p with i := true } } := rfl
@[simp] theorem setI_latch : (s.setI).latch = s.latch := rfl
@[simp] theorem setI_seq : (s.setI).seq = s.seq := rfl
@[simp] theorem setI_t : (s.setI).t = s.t := rfl
@[simp] theorem setI_ctl : (s.setI).ctl = s.ctl := rfl
@[simp] theorem setI_lastBus : (s.setI).lastBus = s.lastBus := rfl
@[simp] theorem setI_dbus : (s.setI).dbus = s.dbus := rfl
@[simp] theorem setI_mem : (s.setI).mem = s.mem := rfl
@[simp] theorem setI_hooks : (s.setI).hooks = s.hooks := rfl
@[simp] theorem setI_hookCalls : (s.setI).hookCalls = s.hookCalls := rfl
@[simp] theorem setI_cfg : (s.setI).cfg = s.cfg := rfl
@[simp] theorem setI_inputs : (s.setI).inputs = s.inputs := rfl
@[simp] theorem setI_trace : (s.setI).trace = s.trace := rfl

end

/-! ### pullP -/

section
variable (s : State)

@[simp] theorem pullP_regs : (s.pullP).regs = { s.regs with p := unpackP s.latch.dl } := rfl
@[simp] theorem pullP_latch : (s.pullP).latch = s.latch := rfl
@[simp] theorem pullP_seq : (s.pullP).seq = s.seq := rfl
@[simp] theorem pullP_t : (s.pullP).t = s.t := rfl
@[simp] theorem pullP_ctl : (s.pullP).ctl = s.ctl := rfl
@[simp] theorem pullP_lastBus : (s.pullP).lastBus = s.lastBus := rfl
@[simp] theorem pullP_dbus : (s.pullP).dbus = s.dbus := rfl
@[simp] theorem pullP_mem : (s.pullP).mem = s.mem := rfl
@[simp] theorem pullP_hooks : (s.pullP).hooks = s.hooks := rfl
@[simp] theorem pullP_hookCalls : (s.pullP).hookCalls = s.hookCalls := rfl
@[simp] theorem pullP_cfg : (s.pullP).cfg = s.cfg := rfl
@[simp] theorem pullP_inputs : (s.pullP).inputs = s.inputs := rfl
@[simp] theorem pullP_trace : (s.pullP).trace = s.trace := rfl

end

/-! ### jumpToLatched -/

section
variable (s : State)

@[simp] theorem jumpToLatched_regs : (s.jumpToLatched).regs = { s.regs with pc := pair s.latch.adh s.latch.adl } := rfl
@[simp] theorem jumpToLatched_latch : (s.jumpToLatched).latch = s.latch := rfl
@[simp] theorem jumpToLatched_seq : (s.jumpToLatched).seq = s.seq := rfl
@[simp] theorem jumpToLatched_t : (s.jumpToLatched).t = s.t := rfl
@[simp] theorem jumpToLatched_ctl : (s.jumpToLatched).ctl = s.ctl := rfl
@[simp] theorem jumpToLatched_lastBus : (s.jumpToLatched).lastBus = s.lastBus := rfl
@[simp] theorem jumpToLatched_dbus : (s.jumpToLatched).dbus = s.dbus := rfl
@[simp] theorem jumpToLatched_mem : (s.jumpToLatched).mem = s.mem := rfl
@[simp] theorem jumpToLatched_hooks : (s.jumpToLatched).hooks = s.hooks := rfl
@[simp] theorem jumpToLatched_hookCalls : (s.jumpToLatched).hookCalls = s.hookCalls := rfl
@[simp] theorem jumpToLatched_cfg : (s.jumpToLatched).cfg = s.cfg := rfl
@[simp] theorem jumpToLatched_inputs : (s.jumpToLatched).inputs = s.inputs := rfl
@[simp] theorem jumpToLatched_trace : (s.jumpToLatched).trace = s.trace := rfl

end

/-! ### takeTarget -/

section
variable (s : State)

@[simp] theorem takeTarget_regs : (s.takeTarget).regs = { s.regs with pc := s.latch.ea } := rfl
@[simp] theorem takeTarget_latch : (s.takeTarget).latch = s.latch := rfl
@[simp] theorem takeTarget_seq : (s.takeTarget).seq = s.seq := rfl
@[simp] theorem takeTarget_t : (s.takeTarget).t = s.t := rfl
@[simp] theorem takeTarget_ctl : (s.takeTarget).ctl = s.ctl := rfl
@[simp] theorem takeTarget_lastBus : (s.takeTarget).lastBus = s.lastBus := rfl
@[simp] theorem takeTarget_dbus : (s.takeTarget).dbus = s.dbus := rfl
@[simp] theorem takeTarget_mem : (s.takeTarget).mem = s.mem := rfl
@[simp] theorem takeTarget_hooks : (s.takeTarget).hooks = s.hooks := rfl
@[simp] theorem takeTarget_hookCalls : (s.takeTarget).hookCalls = s.hookCalls := rfl
@[simp] theorem takeTarget_cfg : (s.takeTarget).cfg = s.cfg := rfl
@[simp] theorem takeTarget_inputs : (s.takeTarget).inputs = s.inputs := rfl
@[simp] theorem takeTarget_trace : (s.takeTarget).trace = s.trace := rfl

end

/-! ### tasStack -/

section
variable (s : State)

@[simp] theorem tasStack_regs : (tasStack s).regs = { s.regs with s := s.regs.a &&& s.regs.x } := rfl
@[simp] theorem tasStack_latch : (tasStack s).latch = s.latch := rfl
@[simp] theorem tasStack_seq : (tasStack s).seq = s.seq := rfl
@[simp] theorem tasStack_t : (tasStack s).t = s.t := rfl
@[simp] theorem tasStack_ctl : (tasStack s).ctl = s.ctl := rfl
@[simp] theorem tasStack_lastBus : (tasStack s).lastBus = s.lastBus := rfl
@[simp] theorem tasStack_dbus : (tasStack s).dbus = s.dbus := rfl
@[simp] theorem tasStack_mem : (tasStack s).mem = s.mem := rfl
@[simp] theorem tasStack_hooks : (tasStack s).hooks = s.hooks := rfl
@[simp] theorem tasStack_hookCalls : (tasStack s).hookCalls = s.hookCalls := rfl
@[simp] theorem tasStack_cfg : (tasStack s).cfg = s.cfg := rfl
@[simp] theorem tasStack_inputs : (tasStack s).inputs = s.inputs := rfl
@[simp] theorem tasStack_trace : (tasStack s).trace = s.trace := rfl

end

/-! ### setInhibit -/

section
variable (s : State)

@[simp] theorem setInhibit_regs : (s.setInhibit).regs = s.regs := rfl
@[simp] theorem setInhibit_latch : (s.setInhibit).latch = s.latch := rfl
@[simp] theorem setInhibit_seq : (s.setInhibit).seq = s.seq := rfl
@[simp] theorem setInhibit_t : (s.setInhibit).t = s.t := rfl
@[simp] theorem setInhibit_ctl : (s.setInhibit).ctl = { s.ctl with inhibit := true } := rfl
@[simp] theorem setInhibit_lastBus : (s.setInhibit).lastBus = s.lastBus := rfl
@[simp] theorem setInhibit_dbus : (s.setInhibit).dbus = s.dbus := rfl
@[simp] theorem setInhibit_mem : (s.setInhibit).mem = s.mem := rfl
@[simp] theorem setInhibit_hooks : (s.setInhibit).hooks = s.hooks := rfl
@[simp] theorem setInhibit_hookCalls : (s.setInhibit).hookCalls = s.hookCalls := rfl
@[simp] theorem setInhibit_cfg : (s.setInhibit).cfg = s.cfg := rfl
@[simp] theorem setInhibit_inputs : (s.setInhibit).inputs = s.inputs := rfl
@[simp] theorem setInhibit_trace : (s.setInhibit).trace = s.trace := rfl

end

/-! ### latchLo -/

section
variable (s : State)

@[simp] theorem latchLo_regs : (s.latchLo).regs = s.regs := rfl
@[simp] theorem latchLo_latch : (s.latchLo).latch = { s.latch with adl := s.latch.dl } := rfl
@[simp] theorem latchLo_seq : (s.latchLo).seq = s.seq := rfl
@[simp] theorem latchLo_t : (s.latchLo).t = s.t := rfl
@[simp] theorem latchLo_ctl : (s.latchLo).ctl = s.ctl := rfl
@[simp] theorem latchLo_lastBus : (s.latchLo).lastBus = s.lastBus := rfl
@[simp] theorem latchLo_dbus : (s.latchLo).dbus = s.dbus := rfl
@[simp] theorem latchLo_mem : (s.latchLo).mem = s.mem := rfl
@[simp] theorem latchLo_hooks : (s.latchLo).hooks = s.hooks := rfl
@[simp] theorem latchLo_hookCalls : (s.latchLo).hookCalls = s.hookCalls := rfl
@[simp] theorem latchLo_cfg : (s.latchLo).cfg = s.cfg := rfl
@[simp] theorem latchLo_inputs : (s.latchLo).inputs = s.inputs := rfl
@[simp] theorem latchLo_trace : (s.latchLo).trace = s.trace := rfl

end

/-! ### latchHi -/

section
variable (s : State)

@[simp] theorem latchHi_regs : (s.latchHi).regs = s.regs := rfl
@[simp] theorem latchHi_latch : (s.latchHi).latch = { s.latch with adh := s.latch.dl } := rfl
@[simp] theorem latchHi_seq : (s.latchHi).seq = s.seq := rfl
@[simp] theorem latchHi_t : (s.latchHi).t = s.t := rfl
@[simp] theorem latchHi_ctl : (s.latchHi).ctl = s.ctl := rfl
@[simp] theorem latchHi_lastBus : (s.latchHi).lastBus = s.lastBus := rfl
@[simp] theorem latchHi_dbus : (s.latchHi).dbus = s.dbus := rfl
@[simp] theorem latchHi_mem : (s.latchHi).mem = s.mem := rfl
@[simp] theorem latchHi_hooks : (s.latchHi).hooks = s.hooks := rfl
@[simp] theorem latchHi_hookCalls : (s.latchHi).hookCalls = s.hookCalls := rfl
@[simp] theorem latchHi_cfg : (s.latchHi).cfg = s.cfg := rfl
@[simp] theorem latchHi_inputs : (s.latchHi).inputs = s.inputs := rfl
@[simp] theorem latchHi_trace : (s.latchHi).trace = s.trace := rfl

end

/-! ### setEa -/

section
variable (s : State) (w : Word)

@[simp] theorem setEa_regs : (s.setEa w).regs = s.regs := rfl
@[simp] theorem setEa_latch : (s.setEa w).latch = { s.latch with ea := w, crossed := false } := rfl
@[simp] theorem setEa_seq : (s.setEa w).seq = s.seq := rfl
@[simp] theorem setEa_t : (s.setEa w).t = s.t := rfl
@[simp] theorem setEa_ctl : (s.setEa w).ctl = s.ctl := rfl
@[simp] theorem setEa_lastBus : (s.setEa w).lastBus = s.lastBus := rfl
@[simp] theorem setEa_dbus : (s.setEa w).dbus = s.dbus := rfl
@[simp] theorem setEa_mem : (s.setEa w).mem = s.mem := rfl
@[simp] theorem setEa_hooks : (s.setEa w).hooks = s.hooks := rfl
@[simp] theorem setEa_hookCalls : (s.setEa w).hookCalls = s.hookCalls := rfl
@[simp] theorem setEa_cfg : (s.setEa w).cfg = s.cfg := rfl
@[simp] theorem setEa_inputs : (s.setEa w).inputs = s.inputs := rfl
@[simp] theorem setEa_trace : (s.setEa w).trace = s.trace := rfl

end

/-! ### indexBy -/

section
variable (s : State) (i : Byte)

@[simp] theorem indexBy_regs : (s.indexBy i).regs = s.regs := rfl
@[simp] theorem indexBy_latch : (s.indexBy i).latch = { s.latch with
      ea := pair s.latch.adh s.latch.adl + zext i
      crossed := decide (s.latch.adl.toNat + i.toNat > 0xFF)
      bah := s.latch.adh } := rfl
@[simp] theorem indexBy_seq : (s.indexBy i).seq = s.seq := rfl
@[simp] theorem indexBy_t : (s.indexBy i).t = s.t := rfl
@[simp] theorem indexBy_ctl : (s.indexBy i).ctl = s.ctl := rfl
@[simp] theorem indexBy_lastBus : (s.indexBy i).lastBus = s.lastBus := rfl
@[simp] theorem indexBy_dbus : (s.indexBy i).dbus = s.dbus := rfl
@[simp] theorem indexBy_mem : (s.indexBy i).mem = s.mem := rfl
@[simp] theorem indexBy_hooks : (s.indexBy i).hooks = s.hooks := rfl
@[simp] theorem indexBy_hookCalls : (s.indexBy i).hookCalls = s.hookCalls := rfl
@[simp] theorem indexBy_cfg : (s.indexBy i).cfg = s.cfg := rfl
@[simp] theorem indexBy_inputs : (s.indexBy i).inputs = s.inputs := rfl
@[simp] theorem indexBy_trace : (s.indexBy i).trace = s.trace := rfl

end

/-! ### eaFromLatched -/

section
variable (s : State)

@[simp] theorem eaFromLatched_regs : (s.eaFromLatched).regs = s.regs := rfl
@[simp] theorem eaFromLatched_latch : (s.eaFromLatched).latch = { s.latch with
      ea := pair s.latch.adh s.latch.adl, crossed := false, bah := s.latch.adh } := rfl
@[simp] theorem eaFromLatched_seq : (s.eaFromLatched).seq = s.seq := rfl
@[simp] theorem eaFromLatched_t : (s.eaFromLatched).t = s.t := rfl
@[simp] theorem eaFromLatched_ctl : (s.eaFromLatched).ctl = s.ctl := rfl
@[simp] theorem eaFromLatched_lastBus : (s.eaFromLatched).lastBus = s.lastBus := rfl
@[simp] theorem eaFromLatched_dbus : (s.eaFromLatched).dbus = s.dbus := rfl
@[simp] theorem eaFromLatched_mem : (s.eaFromLatched).mem = s.mem := rfl
@[simp] theorem eaFromLatched_hooks : (s.eaFromLatched).hooks = s.hooks := rfl
@[simp] theorem eaFromLatched_hookCalls : (s.eaFromLatched).hookCalls = s.hookCalls := rfl
@[simp] theorem eaFromLatched_cfg : (s.eaFromLatched).cfg = s.cfg := rfl
@[simp] theorem eaFromLatched_inputs : (s.eaFromLatched).inputs = s.inputs := rfl
@[simp] theorem eaFromLatched_trace : (s.eaFromLatched).trace = s.trace := rfl

end

/-! ### formTarget -/

section
variable (s : State)

@[simp] theorem formTarget_regs : (s.formTarget).regs = s.regs := rfl
@[simp] theorem formTarget_latch : (s.formTarget).latch = { s.latch with
      ea := s.regs.pc + sext s.latch.adl
      crossed := decide (hi (s.regs.pc + sext s.latch.adl) ≠ hi s.regs.pc) } := rfl
@[simp] theorem formTarget_seq : (s.formTarget).seq = s.seq := rfl
@[simp] theorem formTarget_t : (s.formTarget).t = s.t := rfl
@[simp] theorem formTarget_ctl : (s.formTarget).ctl = s.ctl := rfl
@[simp] theorem formTarget_lastBus : (s.formTarget).lastBus = s.lastBus := rfl
@[simp] theorem formTarget_dbus : (s.formTarget).dbus = s.dbus := rfl
@[simp] theorem formTarget_mem : (s.formTarget).mem = s.mem := rfl
@[simp] theorem formTarget_hooks : (s.formTarget).hooks = s.hooks := rfl
@[simp] theorem formTarget_hookCalls : (s.formTarget).hookCalls = s.hookCalls := rfl
@[simp] theorem formTarget_cfg : (s.formTarget).cfg = s.cfg := rfl
@[simp] theorem formTarget_inputs : (s.formTarget).inputs = s.inputs := rfl
@[simp] theorem formTarget_trace : (s.formTarget).trace = s.trace := rfl

end

/-! ### operand8 -/

section
variable (s : State) (b : Byte)

@[simp] theorem operand8_regs : (operand8 b s).regs = s.regs := rfl
@[simp] theorem operand8_latch : (operand8 b s).latch = { s.latch with adl := b, dl := b } := rfl
@[simp] theorem operand8_seq : (operand8 b s).seq = s.seq := rfl
@[simp] theorem operand8_t : (operand8 b s).t = s.t := rfl
@[simp] theorem operand8_ctl : (operand8 b s).ctl = s.ctl := rfl
@[simp] theorem operand8_lastBus : (operand8 b s).lastBus = s.lastBus := rfl
@[simp] theorem operand8_dbus : (operand8 b s).dbus = s.dbus := rfl
@[simp] theorem operand8_mem : (operand8 b s).mem = s.mem := rfl
@[simp] theorem operand8_hooks : (operand8 b s).hooks = s.hooks := rfl
@[simp] theorem operand8_hookCalls : (operand8 b s).hookCalls = s.hookCalls := rfl
@[simp] theorem operand8_cfg : (operand8 b s).cfg = s.cfg := rfl
@[simp] theorem operand8_inputs : (operand8 b s).inputs = s.inputs := rfl
@[simp] theorem operand8_trace : (operand8 b s).trace = s.trace := rfl

end

/-! ### operand16 -/

section
variable (s : State) (w : Word)

@[simp] theorem operand16_regs : (operand16 w s).regs = s.regs := rfl
@[simp] theorem operand16_latch : (operand16 w s).latch = { s.latch with adl := lo w, adh := hi w, dl := hi w } := rfl
@[simp] theorem operand16_seq : (operand16 w s).seq = s.seq := rfl
@[simp] theorem operand16_t : (operand16 w s).t = s.t := rfl
@[simp] theorem operand16_ctl : (operand16 w s).ctl = s.ctl := rfl
@[simp] theorem operand16_lastBus : (operand16 w s).lastBus = s.lastBus := rfl
@[simp] theorem operand16_dbus : (operand16 w s).dbus = s.dbus := rfl
@[simp] theorem operand16_mem : (operand16 w s).mem = s.mem := rfl
@[simp] theorem operand16_hooks : (operand16 w s).hooks = s.hooks := rfl
@[simp] theorem operand16_hookCalls : (operand16 w s).hookCalls = s.hookCalls := rfl
@[simp] theorem operand16_cfg : (operand16 w s).cfg = s.cfg := rfl
@[simp] theorem operand16_inputs : (operand16 w s).inputs = s.inputs := rfl
@[simp] theorem operand16_trace : (operand16 w s).trace = s.trace := rfl

end

/-! ### applyRead -/

section
variable (s : State) (op : ReadOp)

@[simp] theorem applyRead_regs : (s.applyRead op).regs = op s.cfg s.latch.dl s.regs := rfl
@[simp] theorem applyRead_latch : (s.applyRead op).latch = s.latch := rfl
@[simp] theorem applyRead_seq : (s.applyRead op).seq = s.seq := rfl
@[simp] theorem applyRead_t : (s.applyRead op).t = s.t := rfl
@[simp] theorem applyRead_ctl : (s.applyRead op).ctl = s.ctl := rfl
@[simp] theorem applyRead_lastBus : (s.applyRead op).lastBus = s.lastBus := rfl
@[simp] theorem applyRead_dbus : (s.applyRead op).dbus = s.dbus := rfl
@[simp] theorem applyRead_mem : (s.applyRead op).mem = s.mem := rfl
@[simp] theorem applyRead_hooks : (s.applyRead op).hooks = s.hooks := rfl
@[simp] theorem applyRead_hookCalls : (s.applyRead op).hookCalls = s.hookCalls := rfl
@[simp] theorem applyRead_cfg : (s.applyRead op).cfg = s.cfg := rfl
@[simp] theorem applyRead_inputs : (s.applyRead op).inputs = s.inputs := rfl
@[simp] theorem applyRead_trace : (s.applyRead op).trace = s.trace := rfl

end

/-! ### applyRmw -/

section
variable (s : State) (op : RmwOp)

@[simp] theorem applyRmw_regs : (s.applyRmw op).regs = (op s.cfg s.latch.dl s.regs).2 := rfl
@[simp] theorem applyRmw_latch : (s.applyRmw op).latch = { s.latch with res := (op s.cfg s.latch.dl s.regs).1 } := rfl
@[simp] theorem applyRmw_seq : (s.applyRmw op).seq = s.seq := rfl
@[simp] theorem applyRmw_t : (s.applyRmw op).t = s.t := rfl
@[simp] theorem applyRmw_ctl : (s.applyRmw op).ctl = s.ctl := rfl
@[simp] theorem applyRmw_lastBus : (s.applyRmw op).lastBus = s.lastBus := rfl
@[simp] theorem applyRmw_dbus : (s.applyRmw op).dbus = s.dbus := rfl
@[simp] theorem applyRmw_mem : (s.applyRmw op).mem = s.mem := rfl
@[simp] theorem applyRmw_hooks : (s.applyRmw op).hooks = s.hooks := rfl
@[simp] theorem applyRmw_hookCalls : (s.applyRmw op).hookCalls = s.hookCalls := rfl
@[simp] theorem applyRmw_cfg : (s.applyRmw op).cfg = s.cfg := rfl
@[simp] theorem applyRmw_inputs : (s.applyRmw op).inputs = s.inputs := rfl
@[simp] theorem applyRmw_trace : (s.applyRmw op).trace = s.trace := rfl

end

/-! ### sample -/

section
variable (s : State) (l : Lines)

@[simp] theorem sample_regs : (s.sample l).regs = s.regs := rfl
@[simp] theorem sample_latch : (s.sample l).latch = s.latch := rfl
@[simp] theorem sample_seq : (s.sample l).seq = s.seq := rfl
@[simp] theorem sample_t : (s.sample l).t = s.t := rfl
@[simp] theorem sample_ctl : (s.sample l).ctl = { s.ctl with
      nmiPending := s.ctl.nmiPending || (l.nmi && !s.ctl.nmiPrev)
      nmiPrev := l.nmi
      resPending := s.ctl.resPending || (l.res && !s.ctl.resPrev)
      resPrev := l.res
      irqLine := l.irq
      rdyLine := l.rdy } := rfl
@[simp] theorem sample_lastBus : (s.sample l).lastBus = s.lastBus := rfl
@[simp] theorem sample_dbus : (s.sample l).dbus = s.dbus := rfl
@[simp] theorem sample_mem : (s.sample l).mem = s.mem := rfl
@[simp] theorem sample_hooks : (s.sample l).hooks = s.hooks := rfl
@[simp] theorem sample_hookCalls : (s.sample l).hookCalls = s.hookCalls := rfl
@[simp] theorem sample_cfg : (s.sample l).cfg = s.cfg := rfl
@[simp] theorem sample_inputs : (s.sample l).inputs = s.inputs := rfl
@[simp] theorem sample_trace : (s.sample l).trace = s.trace := rfl

end

/-! ### poke -/

section
variable (s : State) (a : Word) (v : Byte)

@[simp] theorem poke_regs : (s.poke a v).regs = s.regs := rfl
@[simp] theorem poke_latch : (s.poke a v).latch = s.latch := rfl
@[simp] theorem poke_seq : (s.poke a v).seq = s.seq := rfl
@[simp] theorem poke_t : (s.poke a v).t = s.t := rfl
@[simp] theorem poke_ctl : (s.poke a v).ctl = s.ctl := rfl
@[simp] theorem poke_lastBus : (s.poke a v).lastBus = s.lastBus := rfl
@[simp] theorem poke_dbus : (s.poke a v).dbus = s.dbus := rfl
@[simp] theorem poke_mem : (s.poke a v).mem = Memory.set s.mem (mirrorIndex s.cfg.mirrors a).toNat v := rfl
@[simp] theorem poke_hooks : (s.poke a v).hooks = s.hooks := rfl
@[simp] theorem poke_hookCalls : (s.poke a v).hookCalls = s.hookCalls := rfl
@[simp] theorem poke_cfg : (s.poke a v).cfg = s.cfg := rfl
@[simp] theorem poke_inputs : (s.poke a v).inputs = s.inputs := rfl
@[simp] theorem poke_trace : (s.poke a v).trace = s.trace := rfl

end

end Sys2Proof.Machine
end

