-- ==== Sys2Proof/Laws/Bus.lean ====
section
/-!
SUPPORT. What one bus cycle can do: a read cycle changes the latch DL and the environment's side only, a write cycle the backing
array and the environment's side only; what the read byte is, and what the write leaves in every byte.
-/

namespace Sys2Proof.Machine

/-! ### Looking at the memory map -/

theorem hookAt_congr {s t : State} (h : t.hooks = s.hooks) (a : Word) : t.hookAt a = s.hookAt a := by
  simp only [State.hookAt, h]

theorem peek_congr {s t : State} (hm : t.mem = s.mem) (hc : t.cfg = s.cfg) (a : Word) : t.peek a = s.peek a := by
  simp only [State.peek, hm, hc]

theorem poke_mem_congr {s t : State} (hm : t.mem = s.mem) (hc : t.cfg = s.cfg) (a : Word) (v : Byte) :
    (t.poke a v).mem = (s.poke a v).mem := by
  simp only [poke_mem, hm, hc]

theorem resolve_hooked {s : State} {a : Word} {h : HookRange} (hh : s.hookAt a = some h) : s.resolve a = .hook h := by
  simp only [State.resolve, hh]

theorem resolve_plain {s : State} {a : Word} (hh : s.hookAt a = none) :
    s.resolve a = .array (mirrorIndex s.cfg.mirrors a) := by
  simp only [State.resolve, hh]

/-- Storing behind `a` leaves what every address with another index reads. -/
theorem peek_poke_other (s : State) (a b : Word) (v : Byte) (h : mirrorIndex s.cfg.mirrors b ≠ mirrorIndex s.cfg.mirrors a) :
    (s.poke a v).peek b = s.peek b :=
  Memory.get_set_other _ _ _ _ fun e => h (BitVec.eq_of_toNat_eq e)

/-- Storing behind `a` is seen at every address with the same index (R103). -/
theorem peek_poke_same {s : State} (hw : Memory.wf s.mem = true) (a b : Word) (v : Byte)
    (h : mirrorIndex s.cfg.mirrors b = mirrorIndex s.cfg.mirrors a) : (s.poke a v).peek b = v := by
  simp only [State.peek, poke_mem, poke_cfg, h]
  exact Memory.get_set_same hw _ _

theorem poke_wf {s : State} (hw : Memory.wf s.mem = true) (a : Word) (v : Byte) : Memory.wf (s.poke a v).mem = true :=
  Memory.set_wf hw _ _

/-! ### The memory map's answer -/

section accessRead
variable (a : Word) (s : State)

@[simp] theorem accessRead_regs : (s.accessRead a).regs = s.regs := by unfold State.accessRead; split <;> rfl
@[simp] theorem accessRead_latch : (s.accessRead a).latch = s.latch := by unfold State.accessRead; split <;> rfl
@[simp] theorem accessRead_seq : (s.accessRead a).seq = s.seq := by unfold State.accessRead; split <;> rfl
@[simp] theorem accessRead_t : (s.accessRead a).t = s.t := by unfold State.accessRead; split <;> rfl
@[simp] theorem accessRead_ctl : (s.accessRead a).ctl = s.ctl := by unfold State.accessRead; split <;> rfl
@[simp] theorem accessRead_lastBus : (s.accessRead a).lastBus = s.lastBus := by unfold State.accessRead; split <;> rfl
@[simp] theorem accessRead_mem : (s.accessRead a).mem = s.mem := by unfold State.accessRead; split <;> rfl
@[simp] theorem accessRead_hooks : (s.accessRead a).hooks = s.hooks := by unfold State.accessRead; split <;> rfl
@[simp] theorem accessRead_cfg : (s.accessRead a).cfg = s.cfg := by unfold State.accessRead; split <;> rfl
@[simp] theorem accessRead_inputs : (s.accessRead a).inputs = s.inputs := by unfold State.accessRead; split <;> rfl
@[simp] theorem accessRead_trace : (s.accessRead a).trace = s.trace := by unfold State.accessRead; split <;> rfl

theorem accessRead_plain {a : Word} {s : State} (h : s.hookAt a = none) : s.accessRead a = { s with dbus := s.peek a } := by
  simp only [State.accessRead, resolve_plain h, State.peek]

end accessRead

section accessWrite
variable (a : Word) (v : Byte) (s : State)

@[simp] theorem accessWrite_regs : (s.accessWrite a v).regs = s.regs := by unfold State.accessWrite; split <;> rfl
@[simp] theorem accessWrite_latch : (s.accessWrite a v).latch = s.latch := by unfold State.accessWrite; split <;> rfl
@[simp] theorem accessWrite_seq : (s.accessWrite a v).seq = s.seq := by unfold State.accessWrite; split <;> rfl
@[simp] theorem accessWrite_t : (s.accessWrite a v).t = s.t := by unfold State.accessWrite; split <;> rfl
@[simp] theorem accessWrite_ctl : (s.accessWrite a v).ctl = s.ctl := by unfold State.accessWrite; split <;> rfl
@[simp] theorem accessWrite_lastBus : (s.accessWrite a v).lastBus = s.lastBus := by unfold State.accessWrite; split <;> rfl
@[simp] theorem accessWrite_dbus : (s.accessWrite a v).dbus = v := by unfold State.accessWrite; split <;> rfl
@[simp] theorem accessWrite_hooks : (s.accessWrite a v).hooks = s.hooks := by unfold State.accessWrite; split <;> rfl
@[simp] theorem accessWrite_cfg : (s.accessWrite a v).cfg = s.cfg := by unfold State.accessWrite; split <;> rfl
@[simp] theorem accessWrite_inputs : (s.accessWrite a v).inputs = s.inputs := by unfold State.accessWrite; split <;> rfl
@[simp] theorem accessWrite_trace : (s.accessWrite a v).trace = s.trace := by unfold State.accessWrite; split <;> rfl

/-- The array after a write of the memory map: unchanged behind a hook, else the byte stored (R101, R105). -/
@[simp] theorem accessWrite_mem : (s.accessWrite a v).mem = if s.hookAt a = none then (s.poke a v).mem else s.mem := by
  unfold State.accessWrite
  cases h : s.hookAt a with
  | none => simp only [resolve_plain h, if_true]; rfl
  | some k => rw [resolve_hooked h]; rfl

end accessWrite

/-! ### A read cycle -/

section emitRead
variable (a : Word) (y : Bool) (s : State)

@[simp] theorem emitRead_regs : (s.emitRead a y).regs = s.regs := by simp [State.emitRead]
@[simp] theorem emitRead_latch : (s.emitRead a y).latch = s.latch := by simp [State.emitRead]
@[simp] theorem emitRead_seq : (s.emitRead a y).seq = s.seq := by simp [State.emitRead]
@[simp] theorem emitRead_t : (s.emitRead a y).t = s.t := by simp [State.emitRead]
@[simp] theorem emitRead_ctl : (s.emitRead a y).ctl = s.ctl := by simp [State.emitRead]
@[simp] theorem emitRead_lastBus :
    (s.emitRead a y).lastBus = some { addr := a, read := true, data := s.dbus, sync := y } := by simp [State.emitRead]
@[simp] theorem emitRead_mem : (s.emitRead a y).mem = s.mem := by simp [State.emitRead]
@[simp] theorem emitRead_hooks : (s.emitRead a y).hooks = s.hooks := by simp [State.emitRead]
@[simp] theorem emitRead_cfg : (s.emitRead a y).cfg = s.cfg := by simp [State.emitRead]
@[simp] theorem emitRead_inputs : (s.emitRead a y).inputs = s.inputs := by simp [State.emitRead]
@[simp] theorem emitRead_trace :
    (s.emitRead a y).trace = { addr := a, read := true, data := s.dbus, sync := y } :: s.trace := by simp [State.emitRead]

theorem emitRead_dbus {a : Word} {s : State} (h : s.hookAt a = none) : (s.emitRead a y).dbus = s.peek a := by
  unfold State.emitRead
  rw [accessRead_plain (by rw [hookAt_congr (drive_hooks s _)]; exact h)]
  exact peek_congr (drive_mem s _) (drive_cfg s _) a

end emitRead

/-- Anything that the emission of a read and the sampling of an input keep, the settling of the read keeps, up to DL. -/
theorem settleRead_invariant {α : Type} (f : State → α) (a : Word) (y : Bool)
    (hs : ∀ s l ls, f { s.sample l with inputs := ls } = f s) (he : ∀ s, f (s.emitRead a y) = f s)
    (hd : ∀ s, f s.latchDl = f s) (ls : List Lines) (s : State) : f (State.settleRead a y ls s) = f s := by
  induction ls generalizing s with
  | nil => simp only [State.settleRead, hd, hs]
  | cons l ls ih =>
    simp only [State.settleRead]
    split
    · rw [ih, he, hs]
    · rw [hd, hs]

section settleRead
variable (a : Word) (y : Bool) (ls : List Lines) (s : State)

@[simp] theorem settleRead_regs : (State.settleRead a y ls s).regs = s.regs :=
  settleRead_invariant State.regs a y (fun _ _ _ => rfl) (by simp) (fun _ => rfl) ls s
@[simp] theorem settleRead_seq : (State.settleRead a y ls s).seq = s.seq :=
  settleRead_invariant State.seq a y (fun _ _ _ => rfl) (by simp) (fun _ => rfl) ls s
@[simp] theorem settleRead_t : (State.settleRead a y ls s).t = s.t :=
  settleRead_invariant State.t a y (fun _ _ _ => rfl) (by simp) (fun _ => rfl) ls s
@[simp] theorem settleRead_mem : (State.settleRead a y ls s).mem = s.mem :=
  settleRead_invariant State.mem a y (fun _ _ _ => rfl) (by simp) (fun _ => rfl) ls s
@[simp] theorem settleRead_hooks : (State.settleRead a y ls s).hooks = s.hooks :=
  settleRead_invariant State.hooks a y (fun _ _ _ => rfl) (by simp) (fun _ => rfl) ls s
@[simp] theorem settleRead_cfg : (State.settleRead a y ls s).cfg = s.cfg :=
  settleRead_invariant State.cfg a y (fun _ _ _ => rfl) (by simp) (fun _ => rfl) ls s
@[simp] theorem settleRead_inhibit : (State.settleRead a y ls s).ctl.inhibit = s.ctl.inhibit :=
  settleRead_invariant (fun s => s.ctl.inhibit) a y (fun _ _ _ => rfl) (by simp) (fun _ => rfl) ls s
@[simp] theorem settleRead_ir : (State.settleRead a y ls s).latch.ir = s.latch.ir :=
  settleRead_invariant (fun s => s.latch.ir) a y (fun _ _ _ => rfl) (by simp) (fun _ => rfl) ls s
@[simp] theorem settleRead_adl : (State.settleRead a y ls s).latch.adl = s.latch.adl :=
  settleRead_invariant (fun s => s.latch.adl) a y (fun _ _ _ => rfl) (by simp) (fun _ => rfl) ls s
@[simp] theorem settleRead_adh : (State.settleRead a y ls s).latch.adh = s.latch.adh :=
  settleRead_invariant (fun s => s.latch.adh) a y (fun _ _ _ => rfl) (by simp) (fun _ => rfl) ls s
@[simp] theorem settleRead_ea : (State.settleRead a y ls s).latch.ea = s.latch.ea :=
  settleRead_invariant (fun s => s.latch.ea) a y (fun _ _ _ => rfl) (by simp) (fun _ => rfl) ls s
@[simp] theorem settleRead_bah : (State.settleRead a y ls s).latch.bah = s.latch.bah :=
  settleRead_invariant (fun s => s.latch.bah) a y (fun _ _ _ => rfl) (by simp) (fun _ => rfl) ls s
@[simp] theorem settleRead_crossed : (State.settleRead a y ls s).latch.crossed = s.latch.crossed :=
  settleRead_invariant (fun s => s.latch.crossed) a y (fun _ _ _ => rfl) (by simp) (fun _ => rfl) ls s
@[simp] theorem settleRead_res : (State.settleRead a y ls s).latch.res = s.latch.res :=
  settleRead_invariant (fun s => s.latch.res) a y (fun _ _ _ => rfl) (by simp) (fun _ => rfl) ls s

/-- The byte latched in the end is the last answer on the bus, and where no hook is in the way every answer is the array's byte. -/
theorem settleRead_dl {a : Word} {s : State} (h : s.hookAt a = none) (hd : s.dbus = s.peek a) :
    (State.settleRead a y ls s).latch.dl = s.peek a := by
  induction ls generalizing s with
  | nil => exact hd
  | cons l ls ih =>
    simp only [State.settleRead]
    split
    · have h1 : (State.hookAt { s.sample l with inputs := ls } a) = none := h
      rw [ih (by rw [hookAt_congr (emitRead_hooks a y _)]; exact h1)]
      · exact peek_congr (emitRead_mem a y _) (emitRead_cfg a y _) a
      · rw [emitRead_dbus y h1]
        exact (peek_congr (emitRead_mem a y _) (emitRead_cfg a y _) a).symm
    · exact hd

end settleRead

section readCycle
variable (a : Word) (y : Bool) (s : State)

@[simp] theorem readCycle_regs : (s.readCycle a y).regs = s.regs := by simp [State.readCycle]
@[simp] theorem readCycle_seq : (s.readCycle a y).seq = s.seq := by simp [State.readCycle]
@[simp] theorem readCycle_t : (s.readCycle a y).t = s.t := by simp [State.readCycle]
@[simp] theorem readCycle_mem : (s.readCycle a y).mem = s.mem := by simp [State.readCycle]
@[simp] theorem readCycle_hooks : (s.readCycle a y).hooks = s.hooks := by simp [State.readCycle]
@[simp] theorem readCycle_cfg : (s.readCycle a y).cfg = s.cfg := by simp [State.readCycle]
@[simp] theorem readCycle_inhibit : (s.readCycle a y).ctl.inhibit = s.ctl.inhibit := by simp [State.readCycle]
@[simp] theorem readCycle_ir : (s.readCycle a y).latch.ir = s.latch.ir := by simp [State.readCycle]
@[simp] theorem readCycle_adl : (s.readCycle a y).latch.adl = s.latch.adl := by simp [State.readCycle]
@[simp] theorem readCycle_adh : (s.readCycle a y).latch.adh = s.latch.adh := by simp [State.readCycle]
@[simp] theorem readCycle_ea : (s.readCycle a y).latch.ea = s.latch.ea := by simp [State.readCycle]
@[simp] theorem readCycle_bah : (s.readCycle a y).latch.bah = s.latch.bah := by simp [State.readCycle]
@[simp] theorem readCycle_crossed : (s.readCycle a y).latch.crossed = s.latch.crossed := by simp [State.readCycle]
@[simp] theorem readCycle_res : (s.readCycle a y).latch.res = s.latch.res := by simp [State.readCycle]
@[simp] theorem readCycle_hookAt (b : Word) : (s.readCycle a y).hookAt b = s.hookAt b := hookAt_congr (by simp) b
@[simp] theorem readCycle_peek (b : Word) : (s.readCycle a y).peek b = s.peek b := peek_congr (by simp) (by simp) b
@[simp] theorem readCycle_poke_mem (b : Word) (v : Byte) : ((s.readCycle a y).poke b v).mem = (s.poke b v).mem :=
  poke_mem_congr (by simp) (by simp) b v

/-- A read of an address no hook covers latches the byte the memory map's array holds for it (R10, R101). -/
theorem readCycle_dl {a : Word} {s : State} (h : s.hookAt a = none) : (s.readCycle a y).latch.dl = s.peek a := by
  unfold State.readCycle
  rw [settleRead_dl y _ (by rw [hookAt_congr (emitRead_hooks a y s)]; exact h)]
  · exact peek_congr (emitRead_mem a y s) (emitRead_cfg a y s) a
  · rw [emitRead_dbus y h]
    exact (peek_congr (emitRead_mem a y s) (emitRead_cfg a y s) a).symm

end readCycle

/-! ### A write cycle -/

section writeCycle
variable (a : Word) (v : Byte) (s : State)

@[simp] theorem writeCycle_regs : (s.writeCycle a v).regs = s.regs := by simp [State.writeCycle, State.emitWrite, State.arrive]
@[simp] theorem writeCycle_latch : (s.writeCycle a v).latch = s.latch := by
  simp [State.writeCycle, State.emitWrite, State.arrive]
@[simp] theorem writeCycle_seq : (s.writeCycle a v).seq = s.seq := by simp [State.writeCycle, State.emitWrite, State.arrive]
@[simp] theorem writeCycle_t : (s.writeCycle a v).t = s.t := by simp [State.writeCycle, State.emitWrite, State.arrive]
@[simp] theorem writeCycle_hooks : (s.writeCycle a v).hooks = s.hooks := by
  simp [State.writeCycle, State.emitWrite, State.arrive]
@[simp] theorem writeCycle_cfg : (s.writeCycle a v).cfg = s.cfg := by simp [State.writeCycle, State.emitWrite, State.arrive]
@[simp] theorem writeCycle_inhibit : (s.writeCycle a v).ctl.inhibit = s.ctl.inhibit := by
  simp [State.writeCycle, State.emitWrite, State.arrive]
@[simp] theorem writeCycle_lastBus :
    (s.writeCycle a v).lastBus = some { addr := a, read := false, data := v, sync := false } := by
  simp [State.writeCycle, State.emitWrite, State.arrive]
@[simp] theorem writeCycle_trace :
    (s.writeCycle a v).trace = { addr := a, read := false, data := v, sync := false } :: s.trace := by
  simp [State.writeCycle, State.emitWrite, State.arrive]
@[simp] theorem writeCycle_inputs : (s.writeCycle a v).inputs = s.inputs.tail := by
  simp [State.writeCycle, State.emitWrite, State.arrive]
@[simp] theorem writeCycle_hookAt (b : Word) : (s.writeCycle a v).hookAt b = s.hookAt b := hookAt_congr (by simp) b

/-- The array after a write cycle (R10, R101, R105). -/
theorem writeCycle_mem : (s.writeCycle a v).mem = if s.hookAt a = none then (s.poke a v).mem else s.mem := by
  have h1 : (s.drive { addr := a, read := false, data := v, sync := false }).hookAt a = s.hookAt a := hookAt_congr rfl a
  simp only [State.writeCycle, State.emitWrite, State.arrive, sample_mem, accessWrite_mem, h1]
  rfl

theorem writeCycle_peek_other (b : Word) (h : mirrorIndex s.cfg.mirrors b ≠ mirrorIndex s.cfg.mirrors a) :
    (s.writeCycle a v).peek b = s.peek b := by
  by_cases hh : s.hookAt a = none
  · rw [← peek_poke_other s a b v h]
    exact peek_congr (by rw [writeCycle_mem, if_pos hh]) (by simp) b
  · exact peek_congr (by rw [writeCycle_mem, if_neg hh]) (by simp) b

theorem writeCycle_wf {s : State} (h : Memory.wf s.mem = true) : Memory.wf (s.writeCycle a v).mem = true := by
  rw [writeCycle_mem]
  split
  · exact poke_wf h a v
  · exact h

end writeCycle

end Sys2Proof.Machine
end

