-- ==== Sys2Proof/Laws/Rows.lean ====
section
/-!
SUPPORT. Running the rows of a cycle table; what every action of every table leaves alone; one induction over all tables.
-/

namespace Sys2Proof.Machine

/-! ### Rows -/

@[simp] theorem rd_happens (f : State → Word) (act : State → State) (s : State) : (rd f act).happens s = true := rfl
@[simp] theorem wr_happens (f : State → Word) (v : State → Byte) (act : State → State) (s : State) :
    (wr f v act).happens s = true := rfl
@[simp] theorem onlyIf_happens (r : Row) (cond : State → Bool) (s : State) : (r.onlyIf cond).happens s = cond s := rfl
@[simp] theorem withSync_happens (r : Row) (s : State) : r.withSync.happens s = r.happens s := rfl
@[simp] theorem rd_run (f : State → Word) (act : State → State) (s : State) :
    (rd f act).run s = act (s.readCycle (f s) false) := rfl
@[simp] theorem rd_withSync_run (f : State → Word) (act : State → State) (s : State) :
    (rd f act).withSync.run s = act (s.readCycle (f s) true) := rfl
@[simp] theorem wr_run (f : State → Word) (v : State → Byte) (act : State → State) (s : State) :
    (wr f v act).run s = (act s).writeCycle (f s) (v s) := rfl
@[simp] theorem onlyIf_run (r : Row) (cond : State → Bool) (s : State) : (r.onlyIf cond).run s = r.run s := rfl

@[simp] theorem runRows_nil (s : State) : runRows [] s = s := rfl
@[simp] theorem runRows_cons (r : Row) (rs : List Row) (s : State) :
    runRows (r :: rs) s = if r.happens s then runRows rs (r.run s) else runRows rs s := rfl

theorem runRows_append (rs rs' : List Row) (s : State) : runRows (rs ++ rs') s = runRows rs' (runRows rs s) := by
  induction rs generalizing s with
  | nil => rfl
  | cons r rs ih =>
    simp only [List.cons_append, runRows_cons]
    split <;> exact ih _

/-! ### Quiet actions -/

/-- `s'` differs from `s` at most in the registers and latches, in `inhibit` being set and in the core being jammed. -/
structure Quiet (s s' : State) : Prop where
  seq : s'.seq = s.seq ∨ s'.seq = .jammed
  ctl : s'.ctl = s.ctl ∨ s'.ctl = { s.ctl with inhibit := true }
  t : s'.t = s.t
  lastBus : s'.lastBus = s.lastBus
  dbus : s'.dbus = s.dbus
  mem : s'.mem = s.mem
  hooks : s'.hooks = s.hooks
  hookCalls : s'.hookCalls = s.hookCalls
  cfg : s'.cfg = s.cfg
  inputs : s'.inputs = s.inputs
  trace : s'.trace = s.trace

theorem Quiet.refl (s : State) : Quiet s s := ⟨.inl rfl, .inl rfl, rfl, rfl, rfl, rfl, rfl, rfl, rfl, rfl, rfl⟩

/-- A change of registers and latches alone is quiet. -/
theorem Quiet.of_regs_latch {s : State} (r : Regs) (l : Latches) : Quiet s { s with regs := r, latch := l } :=
  ⟨.inl rfl, .inl rfl, rfl, rfl, rfl, rfl, rfl, rfl, rfl, rfl, rfl⟩

/-- So is one that sets `inhibit` too. -/
theorem Quiet.of_inhibit {s : State} (r : Regs) (l : Latches) :
    Quiet s { s with regs := r, latch := l, ctl := { s.ctl with inhibit := true } } :=
  ⟨.inl rfl, .inr rfl, rfl, rfl, rfl, rfl, rfl, rfl, rfl, rfl, rfl⟩

theorem Quiet.of_jam {s : State} : Quiet s { s with seq := .jammed } :=
  ⟨.inr rfl, .inl rfl, rfl, rfl, rfl, rfl, rfl, rfl, rfl, rfl, rfl⟩

/-- Every action of the rows is quiet. -/
def QuietRows (rs : List Row) : Prop := ∀ r ∈ rs, ∀ s, Quiet s (r.act s)

/-- Every action of the plan is quiet. -/
def Plan.IsQuiet (p : Plan) : Prop := (∀ s, Quiet s (p.start s)) ∧ QuietRows p.rows

theorem QuietRows.nil : QuietRows [] := fun _ h => nomatch h

theorem QuietRows.cons {r : Row} {rs : List Row} (hr : ∀ s, Quiet s (r.act s)) (hrs : QuietRows rs) : QuietRows (r :: rs) := by
  intro r' h
  cases h with
  | head => exact hr
  | tail _ h => exact hrs r' h

theorem QuietRows.append {rs rs' : List Row} (h : QuietRows rs) (h' : QuietRows rs') : QuietRows (rs ++ rs') := by
  intro r hr
  cases List.mem_append.mp hr with
  | inl hr => exact h r hr
  | inr hr => exact h' r hr

theorem QuietRows.tail {r : Row} {rs : List Row} (h : QuietRows (r :: rs)) : QuietRows rs :=
  fun r' hr' => h r' (List.mem_cons_of_mem _ hr')

/-- A reflexive and transitive relation that every read cycle, every write cycle and every quiet action keeps. -/
structure CycleRel (R : State → State → Prop) : Prop where
  refl : ∀ s, R s s
  trans : ∀ {s t u}, R s t → R t u → R s u
  read : ∀ a y s, R s (s.readCycle a y)
  write : ∀ a v s, R s (s.writeCycle a v)
  quiet : ∀ {s t}, Quiet s t → R s t

theorem CycleRel.row {R : State → State → Prop} (hR : CycleRel R) {r : Row} (hr : ∀ s, Quiet s (r.act s)) (s : State) :
    R s (r.run s) := by
  unfold Row.run
  split
  · exact hR.trans (hR.read _ _ _) (hR.quiet (hr _))
  · exact hR.trans (hR.quiet (hr _)) (hR.write _ _ _)

/-- The one induction over cycle tables. -/
theorem CycleRel.rows {R : State → State → Prop} (hR : CycleRel R) {rs : List Row} (h : QuietRows rs) (s : State) :
    R s (runRows rs s) := by
  induction rs generalizing s with
  | nil => exact hR.refl s
  | cons r rs ih =>
    rw [runRows_cons]
    split
    · exact hR.trans (hR.row (h r List.mem_cons_self) s) (ih h.tail _)
    · exact ih h.tail s

theorem CycleRel.plan {R : State → State → Prop} (hR : CycleRel R) {p : Plan} (h : p.IsQuiet) (s : State) : R s (p.run s) :=
  hR.trans (hR.quiet (h.1 s)) (hR.rows h.2 _)

/-! ### Every table is quiet -/

theorem quiet_regs {s : State} (r : Regs) : Quiet s { s with regs := r } := Quiet.of_regs_latch r s.latch

theorem quiet_latch {s : State} (l : Latches) : Quiet s { s with latch := l } := Quiet.of_regs_latch s.regs l

theorem formAddress_quiet (m : Mode) (s : State) : Quiet s (formAddress m s) := by
  cases m <;> first | exact Quiet.refl s | exact quiet_latch _

theorem addressRows_quiet (m : Mode) : QuietRows (addressRows m) := by
  cases m <;> simp only [addressRows] <;>
    first
    | exact QuietRows.nil
    | exact .cons (fun _ => quiet_latch _) .nil
    | exact .cons (fun _ => quiet_latch _) (.cons (fun _ => quiet_latch _) .nil)
    | exact .cons (fun _ => quiet_latch _) (.cons (fun _ => quiet_latch _) (.cons (fun _ => quiet_latch _) .nil))

theorem uncorrectedRows_quiet (m : Mode) : QuietRows (uncorrectedRows m) := by
  unfold uncorrectedRows
  split
  · exact .cons Quiet.refl .nil
  · exact .nil

theorem readRows_quiet (m : Mode) (op : ReadOp) : QuietRows (readRows m op) := by
  unfold readRows
  split
  · refine .cons (fun s => ?_) (.cons (fun _ => quiet_regs _) .nil)
    show Quiet s (if s.latch.crossed then s else s.applyRead op)
    split
    · exact Quiet.refl s
    · exact quiet_regs _
  · exact .cons (fun _ => quiet_regs _) .nil

theorem readPlan_eq {m : Mode} (h : m ≠ .immediate) (op : ReadOp) :
    readPlan m op = { start := formAddress m, rows := addressRows m ++ readRows m op } := by
  cases m <;> first | rfl | exact absurd rfl h

theorem readPlan_quiet (m : Mode) (op : ReadOp) : (readPlan m op).IsQuiet := by
  by_cases h : m = .immediate
  · rw [h]
    exact ⟨fun _ => quiet_regs _, .nil⟩
  · rw [readPlan_eq h]
    exact ⟨formAddress_quiet m, .append (addressRows_quiet m) (readRows_quiet m op)⟩

theorem writePlan_quiet (m : Mode) (op : StoreOp) : (writePlan m op).IsQuiet :=
  ⟨formAddress_quiet m, .append (.append (addressRows_quiet m) (uncorrectedRows_quiet m)) (.cons Quiet.refl .nil)⟩

theorem highBytePlan_quiet (m : Mode) (reg : Regs → Byte) {act : State → State} (h : ∀ s, Quiet s (act s)) :
    (highBytePlan m reg act).IsQuiet :=
  ⟨formAddress_quiet m, .append (.append (addressRows_quiet m) (uncorrectedRows_quiet m)) (.cons h .nil)⟩

theorem rmwPlan_quiet (m : Mode) (op : RmwOp) : (rmwPlan m op).IsQuiet :=
  ⟨formAddress_quiet m, .append (.append (addressRows_quiet m) (uncorrectedRows_quiet m))
    (.cons Quiet.refl (.cons (fun _ => Quiet.of_regs_latch _ _) (.cons Quiet.refl .nil)))⟩

theorem internalPlan_quiet (op : InternalOp) : (internalPlan op).IsQuiet := ⟨Quiet.refl, .cons (fun _ => quiet_regs _) .nil⟩

theorem accumulatorPlan_quiet (op : RmwOp) : (accumulatorPlan op).IsQuiet := ⟨Quiet.refl, .cons (fun _ => quiet_regs _) .nil⟩

theorem branchPlan_quiet (cond : Status → Bool) : (branchPlan cond).IsQuiet := by
  refine ⟨Quiet.refl, .cons (fun s => ?_) (.cons (fun _ => quiet_regs _) .nil)⟩
  show Quiet s (if s.formTarget.latch.crossed then s.formTarget else s.formTarget.takeTarget)
  split
  · exact quiet_latch _
  · exact Quiet.of_regs_latch _ _

theorem vectorRows_quiet (vec : Word) : QuietRows (vectorRows vec) :=
  .cons (fun _ => quiet_latch _) (.cons (fun _ => Quiet.of_inhibit _ _) .nil)

theorem entryRows_quiet (vec : Word) (b : Bool) : QuietRows (entryRows vec b) :=
  .append (.cons (fun _ => quiet_regs _) (.cons (fun _ => quiet_regs _) (.cons (fun _ => quiet_regs _) .nil)))
    (vectorRows_quiet vec)

theorem interruptRows_quiet (vec : Word) : QuietRows (interruptRows vec) :=
  .append (.cons Quiet.refl (.cons Quiet.refl .nil)) (entryRows_quiet vec false)

theorem resetRows_quiet (cfg : Config) : QuietRows (resetRows cfg) := by
  refine .append (.append ?_ (.cons Quiet.refl (.cons (fun _ => quiet_regs _) (.cons (fun _ => quiet_regs _)
    (.cons (fun _ => quiet_regs _) .nil))))) (vectorRows_quiet _)
  split
  · exact .cons Quiet.refl .nil
  · exact .nil

theorem jamRows_quiet : QuietRows jamRows := .cons Quiet.refl .nil

theorem sequenceRows_quiet (q : Seq) (cfg : Config) : QuietRows (sequenceRows q cfg) := by
  cases q with
  | instr => exact .nil
  | irq => exact interruptRows_quiet _
  | nmi => exact interruptRows_quiet _
  | reset => exact resetRows_quiet cfg
  | jammed => exact jamRows_quiet

theorem returnRows_quiet : QuietRows returnRows :=
  .cons Quiet.refl (.cons (fun _ => quiet_regs _) (.cons (fun _ => quiet_regs _) (.cons (fun _ => Quiet.of_regs_latch _ _)
    (.cons (fun _ => Quiet.of_regs_latch _ _) .nil))))

theorem jumpPlan_quiet : jumpPlan.IsQuiet := ⟨fun _ => quiet_regs _, .nil⟩

theorem jumpIndirectPlan_quiet : jumpIndirectPlan.IsQuiet :=
  ⟨formAddress_quiet .indirect, .cons (fun _ => quiet_latch _) (.cons (fun _ => Quiet.of_regs_latch _ _) .nil)⟩

theorem jsrPlan_quiet : jsrPlan.IsQuiet :=
  ⟨Quiet.refl, .cons Quiet.refl (.cons (fun _ => quiet_regs _) (.cons (fun _ => quiet_regs _)
    (.cons (fun _ => Quiet.of_regs_latch _ _) .nil)))⟩

theorem rtsPlan_quiet : rtsPlan.IsQuiet :=
  ⟨Quiet.refl, .cons Quiet.refl (.cons (fun _ => quiet_regs _) (.cons (fun _ => Quiet.of_regs_latch _ _)
    (.cons (fun _ => Quiet.of_regs_latch _ _) (.cons (fun _ => quiet_regs _) .nil))))⟩

theorem rtiPlan_quiet : rtiPlan.IsQuiet := ⟨Quiet.refl, returnRows_quiet⟩

theorem brkPlan_quiet : brkPlan.IsQuiet := ⟨Quiet.refl, .cons (fun _ => quiet_regs _) (entryRows_quiet _ true)⟩

theorem pushPlan_quiet (value : Regs → Byte) : (pushPlan value).IsQuiet :=
  ⟨Quiet.refl, .cons Quiet.refl (.cons (fun _ => quiet_regs _) .nil)⟩

theorem plaPlan_quiet : plaPlan.IsQuiet :=
  ⟨Quiet.refl, .cons Quiet.refl (.cons (fun _ => quiet_regs _) (.cons (fun _ => quiet_regs _) .nil))⟩

theorem plpPlan_quiet : plpPlan.IsQuiet :=
  ⟨Quiet.refl, .cons Quiet.refl (.cons (fun _ => quiet_regs _) (.cons (fun _ => quiet_regs _) .nil))⟩

theorem jamPlan_quiet : jamPlan.IsQuiet := ⟨Quiet.refl, .cons (fun _ => Quiet.of_jam) .nil⟩

theorem operand8_quiet (b : Byte) (s : State) : Quiet s (operand8 b s) := quiet_latch _

theorem operand16_quiet (w : Word) (s : State) : Quiet s (operand16 w s) := quiet_latch _

end Sys2Proof.Machine
end

