-- ==== Sys2Proof/Laws/Plans.lean ====
section
/-!
SUPPORT. One lemma per access class, for every addressing mode and every operation at once: what its plan does to the registers, to
memory and to everything else.
-/

namespace Sys2Proof.Machine

theorem KeepsRest.refl (s : State) : KeepsRest s s := ⟨rfl, rfl, rfl, rfl, rfl, rfl⟩

theorem KeepsRest.trans {s t u : State} (h : KeepsRest s t) (h' : KeepsRest t u) : KeepsRest s u :=
  ⟨h'.seq.trans h.seq, h'.index.trans h.index, h'.hooks.trans h.hooks, h'.cfg.trans h.cfg, h'.inhibit.trans h.inhibit,
    h'.ir.trans h.ir⟩

theorem readCycle_rest (a : Word) (y : Bool) (s : State) : KeepsRest s (s.readCycle a y) := by constructor <;> simp

theorem writeCycle_rest (a : Word) (v : Byte) (s : State) : KeepsRest s (s.writeCycle a v) := by constructor <;> simp

/-! ### The cycles on the bus -/

theorem AddsCycles.refl (s : State) : AddsCycles s s [] := rfl

theorem AddsCycles.trans {s t u : State} {l l' : List Pins} (h : AddsCycles s t l) (h' : AddsCycles t u l') :
    AddsCycles s u (l ++ l') := by
  unfold AddsCycles at *
  rw [h', h, List.reverse_append, List.append_assoc]

theorem AddsCycles.congr {s t s' t' : State} {l : List Pins} (h : AddsCycles s t l) (hs : s'.trace = s.trace)
    (ht : t'.trace = t.trace) : AddsCycles s' t' l := by
  unfold AddsCycles at *
  rw [hs, ht, h]

/-- A read cycle that no wait lengthens is one cycle on the bus, and leaves no wait to come. -/
theorem readCycle_unwaited (a : Word) (y : Bool) {s : State} (h : s.NoWaits) :
    AddsCycles s (s.readCycle a y) [if y then .fetch a else .read a] ∧ (s.readCycle a y).NoWaits := by
  have hpins : BusCycle.pins { addr := a, read := true, data := s.dbus, sync := y } = if y then .fetch a else .read a := rfl
  unfold State.readCycle
  cases hi : s.inputs with
  | nil => exact ⟨by simp [AddsCycles, State.settleRead, hpins], by simp [State.NoWaits, State.settleRead]⟩
  | cons l ls =>
    have hl : l.rdy = false := h l (by rw [hi]; exact List.mem_cons_self)
    refine ⟨by simp [AddsCycles, State.settleRead, hl, hpins], ?_⟩
    simp only [State.settleRead, hl, Bool.false_eq_true, if_false]
    exact fun l' hl' => h l' (by rw [hi]; exact List.mem_cons_of_mem _ hl')

theorem writeCycle_unwaited (a : Word) (v : Byte) {s : State} (h : s.NoWaits) :
    AddsCycles s (s.writeCycle a v) [.write a v] ∧ (s.writeCycle a v).NoWaits := by
  refine ⟨by simp [AddsCycles, BusCycle.pins], fun l hl => h l ?_⟩
  rw [writeCycle_inputs] at hl
  exact List.mem_of_mem_tail hl

theorem Quiet.noWaits {s t : State} (h : Quiet s t) (hs : s.NoWaits) : t.NoWaits := by
  intro l hl
  rw [h.inputs] at hl
  exact hs l hl

/-- The cycle a row puts on the bus. -/
def Row.pins (r : Row) (s : State) : Pins :=
  match r.value with
  | none => if r.sync then .fetch (r.addr s) else .read (r.addr s)
  | some v => .write (r.addr s) (v s)

@[simp] theorem rd_pins (f : State → Word) (act : State → State) (s : State) : (rd f act).pins s = .read (f s) := rfl
@[simp] theorem rd_withSync_pins (f : State → Word) (act : State → State) (s : State) :
    (rd f act).withSync.pins s = .fetch (f s) := rfl
@[simp] theorem wr_pins (f : State → Word) (v : State → Byte) (act : State → State) (s : State) :
    (wr f v act).pins s = .write (f s) (v s) := rfl
@[simp] theorem onlyIf_pins (r : Row) (cond : State → Bool) (s : State) : (r.onlyIf cond).pins s = r.pins s := rfl

/-- A row without waits is one cycle on the bus. -/
theorem Row.run_unwaited {r : Row} (hq : ∀ s, Quiet s (r.act s)) {s : State} (h : s.NoWaits) :
    AddsCycles s (r.run s) [r.pins s] ∧ (r.run s).NoWaits := by
  unfold Row.run Row.pins
  cases r.value with
  | none =>
    obtain ⟨h1, h2⟩ := readCycle_unwaited (r.addr s) r.sync h
    exact ⟨h1.congr rfl (hq _).trace, (hq _).noWaits h2⟩
  | some v =>
    obtain ⟨h1, h2⟩ := writeCycle_unwaited (r.addr s) (v s) ((hq s).noWaits h)
    exact ⟨h1.congr (hq s).trace.symm rfl, h2⟩

/-- The cycles a table puts on the bus. -/
def rowsPins : List Row → State → List Pins
  | [], _ => []
  | r :: rs, s => if r.happens s then r.pins s :: rowsPins rs (r.run s) else rowsPins rs s

theorem runRows_unwaited {rs : List Row} (hq : QuietRows rs) {s : State} (h : s.NoWaits) :
    AddsCycles s (runRows rs s) (rowsPins rs s) ∧ (runRows rs s).NoWaits := by
  induction rs generalizing s with
  | nil => exact ⟨AddsCycles.refl s, h⟩
  | cons r rs ih =>
    rw [runRows_cons, rowsPins]
    split
    · obtain ⟨h1, n1⟩ := r.run_unwaited (hq r List.mem_cons_self) h
      obtain ⟨h2, n2⟩ := ih hq.tail n1
      exact ⟨h1.trans h2, n2⟩
    · exact ih hq.tail h

/-! ### Addresses -/

/-- The index register of a mode that can cross a page. -/
def indexOf (m : Mode) (r : Regs) : Byte :=
  match m with
  | .absoluteX => r.x
  | .absoluteY | .indirectY => r.y
  | .implied | .accumulator | .immediate | .relative | .zeroPage | .zeroPageX | .zeroPageY | .absolute | .indirect
  | .indirectX => 0

/-- The modes that give an effective address. -/
def addressing (m : Mode) : Bool :=
  match m with
  | .zeroPage | .zeroPageX | .zeroPageY | .absolute | .absoluteX | .absoluteY | .indirectX | .indirectY => true
  | .implied | .accumulator | .immediate | .relative | .indirect => false

/-- The state before the data cycles: the operand latched, the address formed. -/
def addressPhase (m : Mode) (w : Word) (s : State) : State := runRows (addressRows m) (formAddress m (loadOperand m w s))

/-- What the address phase leaves. -/
structure Addressed (m : Mode) (w : Word) (s u : State) : Prop where
  regs : u.regs = s.regs
  mem : u.mem = s.mem
  rest : KeepsRest s u
  located : Located m w s u
  uncrossed : canCross m = false → u.latch.crossed = false
  indexed : canCross m = true → u.latch.ea = pair u.latch.adh u.latch.adl + zext (indexOf m s.regs)
  crosses : canCross m = true → u.latch.crossed = decide (u.latch.adl.toNat + (indexOf m s.regs).toNat > 0xFF)
  high : canCross m = true → u.latch.bah = u.latch.adh
  base : canCross m = true → (∀ a ∈ pointerCells m w s, s.Plain a) → pair u.latch.adh u.latch.adl = baseAddress m w s
  bus : s.NoWaits → AddsCycles s u (addressCycles m w s) ∧ u.NoWaits

theorem zext_add_one (b : Byte) : pair (hi (zext b)) (lo (zext b) + 1) = zext (b + 1) := by simp

theorem loadOperand_quiet (m : Mode) (w : Word) (s : State) : Quiet s (loadOperand m w s) := by
  unfold loadOperand
  split
  · exact Quiet.refl s
  · exact quiet_latch _
  · exact quiet_latch _

theorem Quiet.trans {s t u : State} (h : Quiet s t) (h' : Quiet t u) : Quiet s u where
  seq := h'.seq.elim (fun e => e.symm ▸ h.seq) .inr
  ctl := by
    rcases h'.ctl with e | e
    · rw [e]; exact h.ctl
    · rcases h.ctl with e' | e' <;> rw [e, e'] <;> exact .inr rfl
  t := h'.t.trans h.t
  lastBus := h'.lastBus.trans h.lastBus
  dbus := h'.dbus.trans h.dbus
  mem := h'.mem.trans h.mem
  hooks := h'.hooks.trans h.hooks
  hookCalls := h'.hookCalls.trans h.hookCalls
  cfg := h'.cfg.trans h.cfg
  inputs := h'.inputs.trans h.inputs
  trace := h'.trace.trans h.trace

theorem addressPhase_bus {m : Mode} (hm : addressing m = true) (w : Word) (s : State) (h : s.NoWaits) :
    AddsCycles s (addressPhase m w s) (addressCycles m w s) ∧ (addressPhase m w s).NoWaits := by
  have hq : Quiet s (formAddress m (loadOperand m w s)) := (loadOperand_quiet m w s).trans (formAddress_quiet m _)
  obtain ⟨h1, h2⟩ := runRows_unwaited (addressRows_quiet m) (hq.noWaits h)
  have hp : rowsPins (addressRows m) (formAddress m (loadOperand m w s)) = addressCycles m w s := by
    cases m <;> first
      | rfl
      | exact absurd hm (by decide)
      | simp [addressRows, rowsPins, formAddress, loadOperand, Mode.operandBytes, addressCycles, atEa, atEaNext]
  rw [hp] at h1
  exact ⟨h1.congr hq.trace.symm rfl, h2⟩

theorem addressPhase_spec {m : Mode} (hm : addressing m = true) (w : Word) (s : State) :
    Addressed m w s (addressPhase m w s) := by
  have hplain : ∀ {a : Word} {t : State}, s.Plain a → t.hooks = s.hooks → t.mem = s.mem → t.cfg = s.cfg →
      (t.readCycle a false).latch.dl = s.peek a := fun {a t} h hh hme hc => by
    rw [readCycle_dl _ (by rw [hookAt_congr hh]; exact h), peek_congr hme hc]
  have hbus := addressPhase_bus hm w s
  cases m with
  | implied => exact absurd hm (by decide)
  | accumulator => exact absurd hm (by decide)
  | immediate => exact absurd hm (by decide)
  | relative => exact absurd hm (by decide)
  | indirect => exact absurd hm (by decide)
  | zeroPage =>
    refine ⟨rfl, rfl, ⟨rfl, rfl, rfl, rfl, rfl, rfl⟩, ⟨fun _ => rfl, fun _ => rfl, nofun, nofun⟩, fun _ => rfl, nofun, nofun, nofun, nofun, hbus⟩
  | absolute =>
    refine ⟨rfl, rfl, ⟨rfl, rfl, rfl, rfl, rfl, rfl⟩, ⟨fun _ => pair_hi_lo w, fun _ => pair_hi_lo w, nofun, nofun⟩, fun _ => rfl, nofun,
      nofun, nofun, nofun, hbus⟩
  | absoluteX =>
    have h : (addressPhase .absoluteX w s).latch.ea = w + zext s.regs.x := congrArg (· + zext s.regs.x) (pair_hi_lo w)
    exact ⟨rfl, rfl, ⟨rfl, rfl, rfl, rfl, rfl, rfl⟩, ⟨fun _ => h, fun _ => h, nofun, nofun⟩, nofun, fun _ => rfl, fun _ => rfl, fun _ => rfl,
      fun _ _ => pair_hi_lo w, hbus⟩
  | absoluteY =>
    have h : (addressPhase .absoluteY w s).latch.ea = w + zext s.regs.y := congrArg (· + zext s.regs.y) (pair_hi_lo w)
    exact ⟨rfl, rfl, ⟨rfl, rfl, rfl, rfl, rfl, rfl⟩, ⟨fun _ => h, fun _ => h, nofun, nofun⟩, nofun, fun _ => rfl, fun _ => rfl, fun _ => rfl,
      fun _ _ => pair_hi_lo w, hbus⟩
  | zeroPageX =>
    have h : (addressPhase .zeroPageX w s).latch.ea = zext (lo w + s.regs.x) := by
      simp [addressPhase, addressRows, formAddress, loadOperand, Mode.operandBytes]
    refine ⟨?_, ?_, ?_, ⟨fun _ => h, fun _ => h, nofun, nofun⟩, fun _ => ?_, nofun, nofun, nofun, nofun, hbus⟩
    · simp [addressPhase, addressRows, formAddress, loadOperand, Mode.operandBytes]
    · simp [addressPhase, addressRows, formAddress, loadOperand, Mode.operandBytes]
    · constructor <;> simp [addressPhase, addressRows, formAddress, loadOperand, Mode.operandBytes]
    · simp [addressPhase, addressRows, formAddress, loadOperand, Mode.operandBytes]
  | zeroPageY =>
    have h : (addressPhase .zeroPageY w s).latch.ea = zext (lo w + s.regs.y) := by
      simp [addressPhase, addressRows, formAddress, loadOperand, Mode.operandBytes]
    refine ⟨?_, ?_, ?_, ⟨fun _ => h, fun _ => h, nofun, nofun⟩, fun _ => ?_, nofun, nofun, nofun, nofun, hbus⟩
    · simp [addressPhase, addressRows, formAddress, loadOperand, Mode.operandBytes]
    · simp [addressPhase, addressRows, formAddress, loadOperand, Mode.operandBytes]
    · constructor <;> simp [addressPhase, addressRows, formAddress, loadOperand, Mode.operandBytes]
    · simp [addressPhase, addressRows, formAddress, loadOperand, Mode.operandBytes]
  | indirectX =>
    refine ⟨?_, ?_, ?_, ⟨nofun, fun h => ?_, fun _ => ?_, nofun⟩, fun _ => ?_, nofun, nofun, nofun, nofun, hbus⟩
    · simp [addressPhase, addressRows, formAddress, loadOperand, Mode.operandBytes]
    · simp [addressPhase, addressRows, formAddress, loadOperand, Mode.operandBytes]
    · constructor <;> simp [addressPhase, addressRows, formAddress, loadOperand, Mode.operandBytes]
    · have h1 := h (zext (lo w + s.regs.x)) List.mem_cons_self
      have h2 : s.Plain (zext (lo w + s.regs.x + 1#8)) := h _ (List.mem_cons_of_mem _ List.mem_cons_self)
      simp only [addressPhase, addressRows, formAddress, loadOperand, Mode.operandBytes, effectiveAddress]
      simp [atEa, atEaNext]
      rw [hplain h1, hplain h2] <;> simp
    · simp [addressPhase, addressRows, formAddress, loadOperand, Mode.operandBytes]
    · simp [addressPhase, addressRows, formAddress, loadOperand, Mode.operandBytes]
  | indirectY =>
    refine ⟨?_, ?_, ?_, ⟨nofun, fun h => ?_, nofun, fun _ => ?_⟩, nofun, fun _ => ?_, fun _ => ?_, fun _ => ?_,
      fun _ h => ?_, hbus⟩
    · simp [addressPhase, addressRows, formAddress, loadOperand, Mode.operandBytes]
    · simp [addressPhase, addressRows, formAddress, loadOperand, Mode.operandBytes]
    · constructor <;> simp [addressPhase, addressRows, formAddress, loadOperand, Mode.operandBytes]
    · have h1 := h (zext (lo w)) List.mem_cons_self
      have h2 : s.Plain (zext (lo w + 1#8)) := h _ (List.mem_cons_of_mem _ List.mem_cons_self)
      simp only [addressPhase, addressRows, formAddress, loadOperand, Mode.operandBytes, effectiveAddress]
      simp [atEa, atEaNext]
      rw [hplain h1, hplain h2] <;> simp
    · simp [addressPhase, addressRows, formAddress, loadOperand, Mode.operandBytes]
    · simp [addressPhase, addressRows, formAddress, loadOperand, Mode.operandBytes, indexOf]
    · simp [addressPhase, addressRows, formAddress, loadOperand, Mode.operandBytes, indexOf]
    · simp [addressPhase, addressRows, formAddress, loadOperand, Mode.operandBytes]
    · have h1 := h (zext (lo w)) List.mem_cons_self
      have h2 : s.Plain (zext (lo w + 1#8)) := h _ (List.mem_cons_of_mem _ List.mem_cons_self)
      simp only [addressPhase, addressRows, formAddress, loadOperand, Mode.operandBytes, baseAddress]
      simp [atEa, atEaNext]
      rw [hplain h1, hplain h2] <;> simp

theorem indexedBase_eq (m : Mode) : indexedBase m = canCross m := by cases m <;> rfl

theorem hi_add_eq_iff (h l i : Byte) : hi (pair h l + zext i) = h ↔ ¬ l.toNat + i.toNat > 0xFF := by
  have h1 : h.toNat < 256 := h.isLt
  have h2 : l.toNat < 256 := l.isLt
  have h3 : i.toNat < 256 := i.isLt
  rw [← BitVec.toNat_inj, hi_toNat, BitVec.toNat_add, pair_toNat, zext_toNat]
  omega

/-- The resolver's output in the terms of 40_addressing.md. -/
theorem Addressed.output {m : Mode} {w : Word} {s u : State} (h : Addressed m w s u)
    (hp : ∀ a ∈ pointerCells m w s, s.Plain a) :
    u.latch.ea = effectiveAddress m w s ∧ u.latch.crossed = pageCrossed m w s ∧
    (canCross m = true → atUa u = uncorrectedAddress m w s) := by
  have hea := h.located.plain hp
  cases hc : canCross m with
  | false => exact ⟨hea, by rw [h.uncrossed hc, pageCrossed, indexedBase_eq, hc, Bool.false_and], nofun⟩
  | true =>
    have hb := h.base hc hp
    have hi1 := h.indexed hc
    refine ⟨hea, ?_, fun _ => ?_⟩
    · rw [h.crosses hc, pageCrossed, indexedBase_eq, hc, Bool.true_and, ← hea, ← hb, hi1, hi_pair]
      exact decide_eq_decide.mpr (not_iff_comm.mp (hi_add_eq_iff _ _ _).symm).symm
    · rw [atUa, uncorrectedAddress, h.high hc, ← hea, ← hb, hi_pair]

/-! ### The data cycles -/

/-- Without a page crossing the uncorrected address is the effective address (R182). -/
theorem uncorrected_eq (h l i : Byte) (hc : ¬ l.toNat + i.toNat > 0xFF) :
    pair h (lo (pair h l + zext i)) = pair h l + zext i := by
  apply BitVec.eq_of_toNat_eq
  have h1 : h.toNat < 256 := h.isLt
  rw [pair_toNat, lo_toNat, BitVec.toNat_add, pair_toNat, zext_toNat]
  omega

theorem applyRead_rest (op : ReadOp) (s : State) : KeepsRest s (s.applyRead op) := ⟨rfl, rfl, rfl, rfl, rfl, rfl⟩

/-- What a read-class instruction leaves: the registers its operation gives for the byte in DL, the same memory. -/
structure ReadDone (m : Mode) (w : Word) (op : ReadOp) (s t : State) : Prop where
  regs : t.regs = op s.cfg t.latch.dl s.regs
  mem : t.mem = s.mem
  rest : KeepsRest s t
  located : Located m w s t
  byte : s.Plain t.latch.ea → t.latch.dl = s.peek t.latch.ea
  bus : s.NoWaits → PointersPlain m w s → AddsCycles s t (readCycles m w s)

theorem Located.congr {m : Mode} {w : Word} {s u t : State} (h : Located m w s u) (he : t.latch.ea = u.latch.ea)
    (hl : t.latch.adl = u.latch.adl) (hh : t.latch.adh = u.latch.adh) : Located m w s t :=
  ⟨fun c => he.trans (h.direct c), fun c => he.trans (h.plain c), fun c => by rw [he, hl, hh]; exact h.answeredX c,
    fun c => by rw [he, hl, hh]; exact h.answeredY c⟩

theorem readRows_bus {m : Mode} {w : Word} {s u : State} (op : ReadOp) (hu : Addressed m w s u) (hn : s.NoWaits)
    (hp : PointersPlain m w s) : AddsCycles s (runRows (readRows m op) u) (readCycles m w s) := by
  obtain ⟨h1, n1⟩ := hu.bus hn
  obtain ⟨h2, -⟩ := runRows_unwaited (readRows_quiet m op) n1
  obtain ⟨he, hx, hua⟩ := hu.output hp
  have hr : rowsPins (readRows m op) u =
      (if pageCrossed m w s then [.read (uncorrectedAddress m w s)] else []) ++ [.read (effectiveAddress m w s)] := by
    cases hc : canCross m with
    | false =>
      have hnx : pageCrossed m w s = false := by rw [pageCrossed, indexedBase_eq, hc, Bool.false_and]
      simp [readRows, hc, rowsPins, atEa, he, hnx]
    | true =>
      cases hcr : pageCrossed m w s with
      | true => simp [readRows, hc, rowsPins, atEa, he, hx, hcr, hua hc]
      | false =>
        have : uncorrectedAddress m w s = effectiveAddress m w s := by
          have hcr' : u.latch.crossed = false := hx.trans hcr
          rw [← hua hc, ← he, atUa, hu.high hc, hu.indexed hc]
          rw [hu.crosses hc] at hcr'
          exact uncorrected_eq _ _ _ (by simpa using hcr')
        simp [readRows, hc, rowsPins, hx, hcr, hua hc, this]
  rw [hr] at h2
  have h3 := h1.trans h2
  rwa [← List.append_assoc] at h3

theorem readPlan_run {m : Mode} (hm : addressing m = true) (op : ReadOp) (w : Word) (s : State) :
    ReadDone m w op s ((readPlan m op).run (loadOperand m w s)) := by
  have hne : m ≠ .immediate := by rintro rfl; exact absurd hm (by decide)
  have hrun : (readPlan m op).run (loadOperand m w s) = runRows (readRows m op) (addressPhase m w s) := by
    rw [readPlan_eq hne]; exact runRows_append _ _ _
  rw [hrun]
  have hu := addressPhase_spec hm w s
  generalize addressPhase m w s = u at hu
  have hdl : ∀ {a : Word} {t : State}, s.Plain a → t.hooks = s.hooks → t.mem = s.mem → t.cfg = s.cfg →
      (t.readCycle a false).latch.dl = s.peek a := fun {a t} h hh hme hc => by
    rw [readCycle_dl _ (by rw [hookAt_congr hh]; exact h), peek_congr hme hc]
  have hbus := readRows_bus op hu
  cases hc : canCross m with
  | false =>
    simp only [readRows, hc, Bool.false_eq_true, if_false, runRows_cons, rd_happens, if_true, rd_run, runRows_nil, atEa] at hbus ⊢
    refine ⟨?_, ?_, ?_, ?_, fun h => ?_, hbus⟩
    · simp [hu.regs, hu.rest.cfg]
    · simp [hu.mem]
    · exact hu.rest.trans ((readCycle_rest _ _ _).trans (applyRead_rest op _))
    · exact hu.located.congr (by simp) (by simp) (by simp)
    · simp only [applyRead_latch, readCycle_ea] at h ⊢
      exact hdl h hu.rest.hooks hu.mem hu.rest.cfg
  | true =>
    simp only [readRows, hc, if_true, runRows_cons, rd_happens, rd_run, runRows_nil, onlyIf_happens, onlyIf_run] at hbus ⊢
    have hx := hu.crosses hc
    cases hcr : u.latch.crossed with
    | false =>
      simp only [readCycle_crossed, hcr, Bool.false_eq_true, if_false, applyRead_latch] at hbus ⊢
      have hua : atUa u = u.latch.ea := by
        rw [hcr] at hx
        rw [atUa, hu.high hc, hu.indexed hc]
        exact uncorrected_eq _ _ _ (by simpa using hx.symm)
      rw [hua] at hbus ⊢
      refine ⟨?_, ?_, ?_, ?_, fun h => ?_, hbus⟩
      · simp [hu.regs, hu.rest.cfg]
      · simp [hu.mem]
      · exact hu.rest.trans ((readCycle_rest _ _ _).trans (applyRead_rest op _))
      · exact hu.located.congr (by simp) (by simp) (by simp)
      · simp only [applyRead_latch, readCycle_ea] at h ⊢
        exact hdl h hu.rest.hooks hu.mem hu.rest.cfg
    | true =>
      simp only [readCycle_crossed, hcr, if_true, atEa, readCycle_ea] at hbus ⊢
      refine ⟨?_, ?_, ?_, ?_, fun h => ?_, hbus⟩
      · simp [hu.regs, hu.rest.cfg]
      · simp [hu.mem]
      · exact hu.rest.trans ((readCycle_rest _ _ _).trans ((readCycle_rest _ _ _).trans (applyRead_rest op _)))
      · exact hu.located.congr (by simp) (by simp) (by simp)
      · simp only [applyRead_latch, readCycle_ea] at h ⊢
        exact hdl h (by simp [hu.rest.hooks]) (by simp [hu.mem]) (by simp [hu.rest.cfg])

theorem readPlan_immediate_run (op : ReadOp) (b : Byte) (s : State) :
    (readPlan .immediate op).run (operand8 b s) =
      { s with latch := { s.latch with adl := b, dl := b }, regs := op s.cfg b s.regs } := rfl

/-! ### Stores -/

theorem uncorrectedRows_rest (m : Mode) (u : State) : KeepsRest u (runRows (uncorrectedRows m) u) := by
  unfold uncorrectedRows
  split
  · exact readCycle_rest _ _ _
  · exact KeepsRest.refl u

theorem uncorrectedRows_frame (m : Mode) (u : State) :
    (runRows (uncorrectedRows m) u).regs = u.regs ∧ (runRows (uncorrectedRows m) u).mem = u.mem ∧
    (runRows (uncorrectedRows m) u).latch.ea = u.latch.ea ∧ (runRows (uncorrectedRows m) u).latch.adl = u.latch.adl ∧
    (runRows (uncorrectedRows m) u).latch.adh = u.latch.adh ∧ (runRows (uncorrectedRows m) u).latch.bah = u.latch.bah ∧
    (runRows (uncorrectedRows m) u).latch.crossed = u.latch.crossed := by
  unfold uncorrectedRows
  split <;> simp

/-- The state in which the data cycles of a store or a read-modify-write begin. -/
structure Fixed (m : Mode) (w : Word) (s v : State) : Prop where
  regs : v.regs = s.regs
  mem : v.mem = s.mem
  rest : KeepsRest s v
  located : Located m w s v
  crosses : canCross m = true → v.latch.crossed = decide (v.latch.adl.toNat + (indexOf m s.regs).toNat > 0xFF)
  high : canCross m = true → v.latch.bah = v.latch.adh
  output : PointersPlain m w s → v.latch.ea = effectiveAddress m w s ∧ v.latch.crossed = pageCrossed m w s ∧
    (canCross m = true → pair v.latch.adh v.latch.adl = baseAddress m w s)
  bus : s.NoWaits → PointersPlain m w s → AddsCycles s v (addressCycles m w s ++ fixCycles m w s) ∧ v.NoWaits

theorem uncorrectedPhase_spec {m : Mode} (hm : addressing m = true) (w : Word) (s : State) :
    Fixed m w s (runRows (uncorrectedRows m) (addressPhase m w s)) := by
  have hu := addressPhase_spec hm w s
  have hbus : s.NoWaits → PointersPlain m w s →
      AddsCycles s (runRows (uncorrectedRows m) (addressPhase m w s)) (addressCycles m w s ++ fixCycles m w s) ∧
      (runRows (uncorrectedRows m) (addressPhase m w s)).NoWaits := fun hn hp => by
    obtain ⟨h1, n1⟩ := hu.bus hn
    obtain ⟨h2, n2⟩ := runRows_unwaited (uncorrectedRows_quiet m) n1
    have hr : rowsPins (uncorrectedRows m) (addressPhase m w s) = fixCycles m w s := by
      obtain ⟨-, -, hua⟩ := hu.output hp
      rw [fixCycles, indexedBase_eq]
      cases hc : canCross m with
      | false => simp [uncorrectedRows, hc, rowsPins]
      | true => simp [uncorrectedRows, hc, rowsPins, hua hc]
    rw [hr] at h2
    exact ⟨h1.trans h2, n2⟩
  generalize addressPhase m w s = u at hu hbus
  obtain ⟨h1, h2, h3, h4, h5, h6, h7⟩ := uncorrectedRows_frame m u
  have h8 := uncorrectedRows_rest m u
  generalize runRows (uncorrectedRows m) u = v at h1 h2 h3 h4 h5 h6 h7 h8 hbus ⊢
  exact ⟨h1.trans hu.regs, h2.trans hu.mem, hu.rest.trans h8, hu.located.congr h3 h4 h5,
    fun c => by rw [h7, h4]; exact hu.crosses c, fun c => by rw [h6, h5]; exact hu.high c,
    fun p => ⟨h3.trans (hu.output p).1, h7.trans (hu.output p).2.1, fun c => by rw [h4, h5]; exact hu.base c p⟩, hbus⟩

theorem plain_congr {s t : State} (h : t.hooks = s.hooks) (a : Word) : t.Plain a ↔ s.Plain a := by
  simp only [State.Plain, hookAt_congr h]

theorem apart_congr {s t : State} (h : t.cfg = s.cfg) (a b : Word) : t.Apart a b ↔ s.Apart a b := by
  simp only [State.Apart, h]

theorem writeCycle_mem_plain {a : Word} {s : State} (h : s.Plain a) (v : Byte) : (s.writeCycle a v).mem = (s.poke a v).mem :=
  (writeCycle_mem a v s).trans (if_pos h)

theorem writeCycle_mem_hooked {a : Word} {s : State} (h : ¬ s.Plain a) (v : Byte) : (s.writeCycle a v).mem = s.mem :=
  (writeCycle_mem a v s).trans (if_neg h)

/-- Storing twice behind one address leaves the second byte. -/
theorem Memory.set_set {m : Memory} (h : Memory.wf m = true) (i : Word) (v v' : Byte) :
    Memory.set (Memory.set m i.toNat v) i.toNat v' = Memory.set m i.toNat v' := by
  refine Memory.ext_of_wf (Memory.set_wf (Memory.set_wf h i v) i v') (Memory.set_wf h i v') fun j => ?_
  rw [Memory.get_set (Memory.set_wf h i v), Memory.get_set h, Memory.get_set h]
  split <;> rfl

/-- One write cycle stores (R10, R101, R105). -/
theorem writeCycle_stores (a : Word) (v : Byte) (s : State) : Stores a v s (s.writeCycle a v) where
  hooked h := writeCycle_mem_hooked h v
  plain h _ := writeCycle_mem_plain h v
  same h hw b hb := (peek_congr (writeCycle_mem_plain h v) (by simp) b).trans
    (peek_poke_same hw a b v (Decidable.byContradiction hb))
  other b hb := writeCycle_peek_other a v s b hb

/-- Stores, from a state with the same memory map. -/
theorem Stores.congr_left {a : Word} {v : Byte} {s s' t : State} (h : Stores a v s' t) (hm : s'.mem = s.mem)
    (hh : s'.hooks = s.hooks) (hc : s'.cfg = s.cfg) : Stores a v s t where
  hooked c := (h.hooked ((plain_congr hh a).not.mpr c)).trans hm
  plain c hw := (h.plain ((plain_congr hh a).mpr c) (by rw [hm]; exact hw)).trans (poke_mem_congr hm hc a v)
  same c hw b hb := h.same ((plain_congr hh a).mpr c) (by rw [hm]; exact hw) b ((apart_congr hc b a).not.mpr hb)
  other b hb := (h.other b ((apart_congr hc b a).mpr hb)).trans (peek_congr hm hc b)

/-- Two writes of one address store the second byte. -/
theorem Stores.twice {a : Word} {v v' : Byte} {s u t : State} (h : Stores a v s u) (h' : Stores a v' u t)
    (hh : u.hooks = s.hooks) (hc : u.cfg = s.cfg) (hw : Memory.wf s.mem = true → Memory.wf u.mem = true) :
    Stores a v' s t where
  hooked c := (h'.hooked ((plain_congr hh a).not.mpr c)).trans (h.hooked c)
  plain c w := by
    rw [h'.plain ((plain_congr hh a).mpr c) (hw w), poke_mem, h.plain c w, poke_mem, poke_mem, hc]
    exact Memory.set_set w _ v v'
  same c w b hb := h'.same ((plain_congr hh a).mpr c) (hw w) b ((apart_congr hc b a).not.mpr hb)
  other b hb := (h'.other b ((apart_congr hc b a).mpr hb)).trans (h.other b hb)

/-- What a write-class instruction leaves. -/
structure WriteDone (m : Mode) (w : Word) (op : StoreOp) (s t : State) : Prop where
  regs : t.regs = s.regs
  rest : KeepsRest s t
  located : Located m w s t
  stores : Stores t.latch.ea (op s.regs) s t
  bus : s.NoWaits → PointersPlain m w s → AddsCycles s t (writeCycles m w s (effectiveAddress m w s) (op s.regs))

theorem writePlan_run {m : Mode} (hm : addressing m = true) (op : StoreOp) (w : Word) (s : State) :
    WriteDone m w op s ((writePlan m op).run (loadOperand m w s)) := by
  have hrun : (writePlan m op).run (loadOperand m w s) =
      runRows [wr atEa (fun s => op s.regs) id] (runRows (uncorrectedRows m) (addressPhase m w s)) := by
    rw [← runRows_append, addressPhase, ← runRows_append, ← List.append_assoc]; rfl
  rw [hrun]
  have hu := uncorrectedPhase_spec hm w s
  generalize runRows (uncorrectedRows m) (addressPhase m w s) = u at hu
  simp only [runRows_cons, wr_happens, if_true, wr_run, runRows_nil, atEa, id_eq, hu.regs]
  refine ⟨by simp [hu.regs], hu.rest.trans (writeCycle_rest _ _ _), hu.located.congr (by simp) (by simp) (by simp), ?_,
    fun hn hp => ?_⟩
  · rw [writeCycle_latch]
    exact (writeCycle_stores u.latch.ea (op s.regs) u).congr_left hu.mem hu.rest.hooks hu.rest.cfg
  · obtain ⟨h1, n1⟩ := hu.bus hn hp
    have h2 := h1.trans (writeCycle_unwaited u.latch.ea (op s.regs) n1).1
    rwa [(hu.output hp).1] at h2 ⊢

/-- What a high-byte store leaves (47_illegal.md section 5): the written address and byte are those of `highByteAddr` and
`highByteValue` after the address phase. -/
structure HighByteDone (m : Mode) (w : Word) (reg : Regs → Byte) (act : State → State) (s t : State) : Prop where
  regs : t.regs = (act { s with latch := t.latch }).regs
  rest : KeepsRest s t
  located : Located m w s t
  crosses : t.latch.crossed = decide (t.latch.adl.toNat + (indexOf m s.regs).toNat > 0xFF)
  high : t.latch.bah = t.latch.adh
  stores : Stores (if t.latch.crossed then pair (reg s.regs &&& (t.latch.bah + 1)) (lo t.latch.ea) else t.latch.ea)
    (reg s.regs &&& (t.latch.bah + 1)) s t
  output : PointersPlain m w s → t.latch.ea = effectiveAddress m w s ∧ t.latch.crossed = pageCrossed m w s ∧
    t.latch.bah = hi (baseAddress m w s)
  bus : s.NoWaits → PointersPlain m w s → AddsCycles s t (writeCycles m w s
    (if t.latch.crossed then pair (reg s.regs &&& (t.latch.bah + 1)) (lo t.latch.ea) else t.latch.ea)
    (reg s.regs &&& (t.latch.bah + 1)))

theorem highBytePlan_run {m : Mode} (hm : addressing m = true) (hc : canCross m = true) (reg : Regs → Byte) (w : Word)
    (s : State) : HighByteDone m w reg id s ((highBytePlan m reg id).run (loadOperand m w s)) := by
  have hrun : (highBytePlan m reg id).run (loadOperand m w s) =
      runRows [wr (highByteAddr reg) (highByteValue reg) id] (runRows (uncorrectedRows m) (addressPhase m w s)) := by
    rw [← runRows_append, addressPhase, ← runRows_append, ← List.append_assoc]; rfl
  rw [hrun]
  have hu := uncorrectedPhase_spec hm w s
  generalize runRows (uncorrectedRows m) (addressPhase m w s) = u at hu
  simp only [runRows_cons, wr_happens, if_true, wr_run, runRows_nil, id_eq]
  refine ⟨by simp [hu.regs], hu.rest.trans (writeCycle_rest _ _ _), hu.located.congr (by simp) (by simp) (by simp),
    by simp only [writeCycle_latch]; exact hu.crosses hc, by simp only [writeCycle_latch]; exact hu.high hc, ?_,
    fun hp => ?_, fun hn hp => ?_⟩
  · have h := (writeCycle_stores (highByteAddr reg u) (highByteValue reg u) u).congr_left hu.mem hu.rest.hooks hu.rest.cfg
    simpa only [writeCycle_latch, highByteAddr, highByteValue, hu.regs] using h
  · simp only [writeCycle_latch]
    obtain ⟨h1, h2, h3⟩ := hu.output hp
    exact ⟨h1, h2, by rw [← h3 hc, hi_pair]; exact hu.high hc⟩
  · obtain ⟨h1, n1⟩ := hu.bus hn hp
    have h2 := h1.trans (writeCycle_unwaited (highByteAddr reg u) (highByteValue reg u) n1).1
    simpa only [writeCycle_latch, writeCycles, highByteAddr, highByteValue, hu.regs] using h2

theorem highBytePlan_tas_run {m : Mode} (hm : addressing m = true) (hc : canCross m = true) (reg : Regs → Byte) (w : Word)
    (s : State) : HighByteDone m w reg tasStack s ((highBytePlan m reg tasStack).run (loadOperand m w s)) := by
  have hrun : (highBytePlan m reg tasStack).run (loadOperand m w s) =
      runRows [wr (highByteAddr reg) (highByteValue reg) tasStack] (runRows (uncorrectedRows m) (addressPhase m w s)) := by
    rw [← runRows_append, addressPhase, ← runRows_append, ← List.append_assoc]; rfl
  rw [hrun]
  have hu := uncorrectedPhase_spec hm w s
  generalize runRows (uncorrectedRows m) (addressPhase m w s) = u at hu
  simp only [runRows_cons, wr_happens, if_true, wr_run, runRows_nil]
  have hq : KeepsRest u (tasStack u) := ⟨rfl, rfl, rfl, rfl, rfl, rfl⟩
  refine ⟨by simp [hu.regs], hu.rest.trans (hq.trans (writeCycle_rest _ _ _)),
    hu.located.congr (by simp) (by simp) (by simp), by simp only [writeCycle_latch]; exact hu.crosses hc,
    by simp only [writeCycle_latch]; exact hu.high hc, ?_, fun hp => ?_, fun hn hp => ?_⟩
  · have h := (writeCycle_stores (highByteAddr reg u) (highByteValue reg u) (tasStack u)).congr_left (s := s) hu.mem
      hu.rest.hooks hu.rest.cfg
    simpa only [writeCycle_latch, tasStack_latch, highByteAddr, highByteValue, hu.regs] using h
  · simp only [writeCycle_latch, tasStack_latch]
    obtain ⟨h1, h2, h3⟩ := hu.output hp
    exact ⟨h1, h2, by rw [← h3 hc, hi_pair]; exact hu.high hc⟩
  · obtain ⟨h1, n1⟩ := hu.bus hn hp
    have n2 : (tasStack u).NoWaits := n1
    have h2 := h1.trans ((writeCycle_unwaited (highByteAddr reg u) (highByteValue reg u) n2).1.congr (s' := u) rfl rfl)
    simpa only [writeCycle_latch, tasStack_latch, writeCycles, highByteAddr, highByteValue, hu.regs] using h2

/-- What a read-modify-write leaves: the first write has put the byte back as it was, the second has stored the result. -/
structure RmwDone (m : Mode) (w : Word) (op : RmwOp) (s t : State) : Prop where
  regs : t.regs = (op s.cfg t.latch.dl s.regs).2
  rest : KeepsRest s t
  located : Located m w s t
  byte : s.Plain t.latch.ea → t.latch.dl = s.peek t.latch.ea
  stores : Stores t.latch.ea (op s.cfg t.latch.dl s.regs).1 s t
  twice : ∃ earlier, t.trace = { addr := t.latch.ea, read := false, data := (op s.cfg t.latch.dl s.regs).1, sync := false } ::
    { addr := t.latch.ea, read := false, data := t.latch.dl, sync := false } :: earlier
  bus : s.NoWaits → PointersPlain m w s →
    AddsCycles s t (rmwCycles m w s t.latch.dl (op s.cfg t.latch.dl s.regs).1)

theorem rmwPlan_run {m : Mode} (hm : addressing m = true) (op : RmwOp) (w : Word) (s : State) :
    RmwDone m w op s ((rmwPlan m op).run (loadOperand m w s)) := by
  have hrun : (rmwPlan m op).run (loadOperand m w s) =
      runRows (rmwRows op) (runRows (uncorrectedRows m) (addressPhase m w s)) := by
    rw [← runRows_append, addressPhase, ← runRows_append, ← List.append_assoc]; rfl
  rw [hrun]
  have hu := uncorrectedPhase_spec hm w s
  generalize runRows (uncorrectedRows m) (addressPhase m w s) = u at hu
  simp only [rmwRows, runRows_cons, rd_happens, wr_happens, if_true, rd_run, wr_run, runRows_nil, atEa, id_eq, applyRmw_latch,
    writeCycle_latch, readCycle_ea]
  have hr := readCycle_rest u.latch.ea false u
  have hea : (u.readCycle u.latch.ea false).latch.ea = u.latch.ea := readCycle_ea _ _ _
  have hadl : (u.readCycle u.latch.ea false).latch.adl = u.latch.adl := readCycle_adl _ _ _
  have hadh : (u.readCycle u.latch.ea false).latch.adh = u.latch.adh := readCycle_adh _ _ _
  have hregs : (u.readCycle u.latch.ea false).regs = s.regs := (readCycle_regs _ _ _).trans hu.regs
  have hmem : (u.readCycle u.latch.ea false).mem = s.mem := (readCycle_mem _ _ _).trans hu.mem
  have hdl : s.Plain u.latch.ea → (u.readCycle u.latch.ea false).latch.dl = s.peek u.latch.ea := fun h => by
    rw [readCycle_dl _ (by rw [hookAt_congr hu.rest.hooks]; exact h), peek_congr hu.mem hu.rest.cfg]
  have hvr := hu.rest.trans hr
  have hvb : s.NoWaits → PointersPlain m w s → AddsCycles s (u.readCycle u.latch.ea false)
      (addressCycles m w s ++ fixCycles m w s ++ [.read (effectiveAddress m w s)]) ∧
      (u.readCycle u.latch.ea false).NoWaits := fun hn hp => by
    obtain ⟨h1, n1⟩ := hu.bus hn hp
    obtain ⟨h2, n2⟩ := readCycle_unwaited u.latch.ea false n1
    have h3 := h1.trans h2
    rw [if_neg Bool.false_ne_true, (hu.output hp).1] at h3
    rw [(hu.output hp).1] at n2 ⊢
    exact ⟨h3, n2⟩
  generalize u.readCycle u.latch.ea false = v at *
  have hq : KeepsRest v (v.applyRmw op) := ⟨rfl, rfl, rfl, rfl, rfl, rfl⟩
  refine ⟨by simp [hregs, hvr.cfg], hvr.trans (hq.trans ((writeCycle_rest _ _ _).trans (writeCycle_rest _ _ _))),
    hu.located.congr (by simp [hea]) (by simp [hadl]) (by simp [hadh]), fun h => ?_, ?_, ?_,
    fun hn hp => ?_⟩
  · simp only [writeCycle_latch, applyRmw_latch, hea] at h ⊢
    exact hdl h
  · simp only [writeCycle_latch, applyRmw_latch, hea, hregs, hvr.cfg]
    have h1 := (writeCycle_stores u.latch.ea v.latch.dl (v.applyRmw op)).congr_left (s := s) hmem hvr.hooks hvr.cfg
    have h2 := writeCycle_stores u.latch.ea (op s.cfg v.latch.dl s.regs).1
      ((v.applyRmw op).writeCycle u.latch.ea v.latch.dl)
    refine h1.twice h2 (by simp [hvr.hooks]) (by simp [hvr.cfg]) fun hw => ?_
    exact writeCycle_wf _ _ (by simp [hmem, hw])
  · refine ⟨v.trace, ?_⟩
    simp [hea, hregs, hvr.cfg]
  · obtain ⟨h1, n1⟩ := hvb hn hp
    have n2 : (v.applyRmw op).NoWaits := n1
    obtain ⟨h2, n3⟩ := writeCycle_unwaited u.latch.ea v.latch.dl n2
    obtain ⟨h3, -⟩ := writeCycle_unwaited u.latch.ea (op v.cfg v.latch.dl v.regs).1 n3
    have h4 := (h1.trans (h2.congr (s' := v) rfl rfl)).trans h3
    simpa [rmwCycles, (hu.output hp).1, hregs, hvr.cfg] using h4

/-! ### Internal operations -/

/-- What an internal operation leaves. -/
structure InternalDone (op : InternalOp) (s t : State) : Prop where
  regs : t.regs = op s.regs
  mem : t.mem = s.mem
  rest : KeepsRest s t
  bus : s.NoWaits → AddsCycles s t [.read s.regs.pc]

theorem internalPlan_run (op : InternalOp) (s : State) : InternalDone op s ((internalPlan op).run s) where
  regs := by simp [Plan.run, internalPlan]
  mem := by simp [Plan.run, internalPlan]
  rest := by constructor <;> simp [Plan.run, internalPlan]
  bus hn := (runRows_unwaited (internalPlan_quiet op).2 hn).1

theorem accumulatorPlan_run (op : RmwOp) (s : State) : InternalDone (onA op s.cfg) s ((accumulatorPlan op).run s) where
  regs := by simp [Plan.run, accumulatorPlan]
  mem := by simp [Plan.run, accumulatorPlan]
  rest := by constructor <;> simp [Plan.run, accumulatorPlan]
  bus hn := (runRows_unwaited (accumulatorPlan_quiet op).2 hn).1

/-! ### Branches -/

/-- What a branch leaves: PC is the target when the condition holds (R306). -/
structure BranchDone (cond : Status → Bool) (b : Byte) (s t : State) : Prop where
  regs : t.regs = if cond s.regs.p then { s.regs with pc := s.regs.pc + sext b } else s.regs
  mem : t.mem = s.mem
  rest : KeepsRest s t
  bus : s.NoWaits → AddsCycles s t (branchCycles (cond s.regs.p) b s)

theorem branchPlan_run (cond : Status → Bool) (b : Byte) (s : State) :
    BranchDone cond b s ((branchPlan cond).run (operand8 b s)) := by
  have hrun : (branchPlan cond).run (operand8 b s) = runRows (branchPlan cond).rows (operand8 b s) := rfl
  rw [hrun]
  have hbus : s.NoWaits → AddsCycles s (runRows (branchPlan cond).rows (operand8 b s))
      (rowsPins (branchPlan cond).rows (operand8 b s)) := fun hn =>
    (runRows_unwaited (branchPlan_quiet cond).2 (s := operand8 b s) hn).1.congr rfl rfl
  cases hc : cond s.regs.p with
  | false =>
    refine ⟨by simp [branchPlan, hc], by simp [branchPlan, hc], ?_, fun hn => ?_⟩
    · constructor <;> simp [branchPlan, hc]
    · have h := hbus hn
      simpa [branchPlan, hc, rowsPins, branchCycles] using h
  | true =>
    by_cases hx : hi (s.regs.pc + sext b) = hi s.regs.pc
    · refine ⟨by simp [branchPlan, hc, hx], by simp [branchPlan, hc, hx], ?_, fun hn => ?_⟩
      · constructor <;> simp [branchPlan, hc, hx]
      · have h := hbus hn
        simpa [branchPlan, hc, rowsPins, branchCycles, hx, atPc] using h
    · refine ⟨by simp [branchPlan, hc, hx], by simp [branchPlan, hc, hx], ?_, fun hn => ?_⟩
      · constructor <;> simp [branchPlan, hc, hx]
      · have h := hbus hn
        simpa [branchPlan, hc, rowsPins, branchCycles, hx, atPc] using h

end Sys2Proof.Machine
end

