-- ==== Sys2Proof/Laws/Sequences.lean ====
section
/-!
SUPPORT. What the sequences with tables of their own do: pushes, pulls, jumps, subroutine call and return, BRK, taking an interrupt,
returning from one, reset, the jammed state.
-/

namespace Sys2Proof.Machine

theorem byte_sub_two (b : Byte) : b - 1#8 - 1#8 = b - 2#8 := by bv_omega

theorem byte_sub_three (b : Byte) : b - 1#8 - 1#8 - 1#8 = b - 3#8 := by bv_omega

theorem byte_add_two (b : Byte) : b + 1#8 + 1#8 = b + 2#8 := by bv_omega

theorem byte_two_add_one (b : Byte) : b + 2#8 + 1#8 = b + 3#8 := by bv_omega

theorem byte_add_three (b : Byte) : b + 1#8 + 1#8 + 1#8 = b + 3#8 := by bv_omega

/-! ### Stored bytes -/

theorem stored_hooks (a : Word) (v : Byte) (s : State) : (s.stored a v).hooks = s.hooks := by
  unfold State.stored; split <;> rfl

theorem stored_cfg (a : Word) (v : Byte) (s : State) : (s.stored a v).cfg = s.cfg := by
  unfold State.stored; split <;> rfl

theorem writeCycle_stored (a : Word) (v : Byte) (s : State) : (s.writeCycle a v).mem = (s.stored a v).mem := by
  rw [writeCycle_mem, State.stored]; split <;> rfl

theorem stored_mem_congr {s t : State} (hm : t.mem = s.mem) (hh : t.hooks = s.hooks) (hc : t.cfg = s.cfg) (a : Word) (v : Byte) :
    (t.stored a v).mem = (s.stored a v).mem := by
  unfold State.stored
  rw [hookAt_congr hh]
  split
  · exact poke_mem_congr hm hc a v
  · exact hm

theorem stored_peek_other {s : State} {a b : Word} (h : s.Apart b a) (v : Byte) : (s.stored a v).peek b = s.peek b := by
  unfold State.stored
  split
  · exact peek_poke_other s a b v h
  · rfl

/-! ### Pushes and pulls -/

/-- What a push instruction leaves (R240, R241). -/
structure PushDone (v : Byte) (s t : State) : Prop where
  regs : t.regs = { s.regs with s := s.regs.s - 1 }
  stores : Stores (stackAddr s.regs.s) v s t
  rest : KeepsRest s t
  bus : s.NoWaits → AddsCycles s t [.read s.regs.pc, .write (stackAddr s.regs.s) v]

theorem pushPlan_run (value : Regs → Byte) (s : State) : PushDone (value s.regs) s ((pushPlan value).run s) where
  regs := by simp [Plan.run, pushPlan]
  stores := by
    have hv : (pushPlan value).run s =
        (s.readCycle s.regs.pc false).decS.writeCycle (stackAddr s.regs.s) (value s.regs) := by
      simp [Plan.run, pushPlan, atStack, atPc]
    rw [hv]
    exact (writeCycle_stores _ _ _).congr_left (by simp) (by simp) (by simp)
  rest := by constructor <;> simp [Plan.run, pushPlan]
  bus hn := by
    have h := (runRows_unwaited (pushPlan_quiet value).2 hn).1
    have hp : rowsPins (pushPlan value).rows s = [.read s.regs.pc, .write (stackAddr s.regs.s) (value s.regs)] := by
      simp [pushPlan, rowsPins, atPc, atStack]
    rwa [hp] at h

/-- What a pull instruction leaves, `regs` being the registers it gives for the byte in DL (R242, R243). -/
structure PullDone (regs : Byte → Regs) (s t : State) : Prop where
  regs : t.regs = regs t.latch.dl
  byte : s.Plain (stackAddr (s.regs.s + 1)) → t.latch.dl = s.peek (stackAddr (s.regs.s + 1))
  mem : t.mem = s.mem
  rest : KeepsRest s t
  bus : s.NoWaits → AddsCycles s t [.read s.regs.pc, .read (stackAddr s.regs.s), .read (stackAddr (s.regs.s + 1))]

/-- A read of an address with the memory map of `s`. -/
theorem readCycle_plain {s t : State} {a : Word} (h : s.Plain a) (hh : t.hooks = s.hooks) (hm : t.mem = s.mem)
    (hc : t.cfg = s.cfg) (y : Bool) : (t.readCycle a y).latch.dl = s.peek a := by
  rw [readCycle_dl _ (by rw [hookAt_congr hh]; exact h), peek_congr hm hc]

theorem plaPlan_run (s : State) :
    PullDone (fun v => { s.regs with a := v, s := s.regs.s + 1, p := { s.regs.p with z := v == 0, n := v.getLsbD 7 } }) s
      (plaPlan.run s) where
  regs := by simp [Plan.run, plaPlan, pullPlan, setNZ, atStack]
  byte h := by
    have hd := fun t hh hm hc => readCycle_plain (t := t) h hh hm hc false
    simp [Plan.run, plaPlan, pullPlan, atStack]
    exact hd _ (by simp) (by simp) (by simp)
  mem := by simp [Plan.run, plaPlan, pullPlan]
  rest := by constructor <;> simp [Plan.run, plaPlan, pullPlan]
  bus hn := by
    have h := (runRows_unwaited plaPlan_quiet.2 hn).1
    have hp : rowsPins plaPlan.rows s =
        [.read s.regs.pc, .read (stackAddr s.regs.s), .read (stackAddr (s.regs.s + 1))] := by
      simp [plaPlan, pullPlan, rowsPins, atPc, atStack]
    rwa [hp] at h

theorem plpPlan_run (s : State) :
    PullDone (fun v => { s.regs with s := s.regs.s + 1, p := unpackP v }) s (plpPlan.run s) where
  regs := by simp [Plan.run, plpPlan, pullPlan, atStack]
  byte h := by
    have hd := fun t hh hm hc => readCycle_plain (t := t) h hh hm hc false
    simp [Plan.run, plpPlan, pullPlan, atStack]
    exact hd _ (by simp) (by simp) (by simp)
  mem := by simp [Plan.run, plpPlan, pullPlan]
  rest := by constructor <;> simp [Plan.run, plpPlan, pullPlan]
  bus hn := by
    have h := (runRows_unwaited plpPlan_quiet.2 hn).1
    have hp : rowsPins plpPlan.rows s =
        [.read s.regs.pc, .read (stackAddr s.regs.s), .read (stackAddr (s.regs.s + 1))] := by
      simp [plpPlan, pullPlan, rowsPins, atPc, atStack]
    rwa [hp] at h

/-! ### Taking an interrupt or BRK -/

/-- What the two vector reads leave (R410). -/
structure VectorDone (vec : Word) (s t : State) : Prop where
  regs : t.regs = { s.regs with pc := pair t.latch.adh t.latch.adl }
  low : s.Plain vec → t.latch.adl = s.peek vec
  high : s.Plain (vec + 1) → t.latch.adh = s.peek (vec + 1)
  mem : t.mem = s.mem
  rest : KeepsButInhibit s t

theorem vectorRows_run (vec : Word) (s : State) : VectorDone vec s (runRows (vectorRows vec) s) where
  regs := by simp [vectorRows]
  low h := by
    have hd := fun t hh hm hc => readCycle_plain (t := t) h hh hm hc false
    simp [vectorRows, fixedAt]
    exact hd _ rfl rfl rfl
  high h := by
    have hd := fun t hh hm hc => readCycle_plain (t := t) h hh hm hc false
    simp [vectorRows, fixedAt]
    exact hd _ (by simp) (by simp) (by simp)
  mem := by simp [vectorRows]
  rest := by constructor <;> simp [vectorRows]

theorem entryRows_run (vec : Word) (b : Bool) (s : State) : Enters vec b s (runRows (entryRows vec b) s) := by
  have hmem : (runRows (entryRows vec b) s).mem =
      (((s.stored (stackAddr s.regs.s) (hi s.regs.pc)).stored (stackAddr (s.regs.s - 1)) (lo s.regs.pc)).stored
        (stackAddr (s.regs.s - 2)) (packP b s.regs.p)).mem := by
    have h1 : ∀ s1 : State, s1.mem = s.mem → s1.hooks = s.hooks → s1.cfg = s.cfg →
        (s1.writeCycle (stackAddr s.regs.s) (hi s.regs.pc)).mem = (s.stored (stackAddr s.regs.s) (hi s.regs.pc)).mem :=
      fun s1 hm hh hc => (writeCycle_stored _ _ _).trans (stored_mem_congr hm hh hc _ _)
    have h2 : ∀ (s0 s1 : State) (a : Word) (v : Byte), s1.mem = s0.mem → s1.hooks = s0.hooks → s1.cfg = s0.cfg →
        (s1.writeCycle a v).mem = (s0.stored a v).mem :=
      fun s0 s1 a v hm hh hc => (writeCycle_stored _ _ _).trans (stored_mem_congr hm hh hc _ _)
    simp only [entryRows, vectorRows, List.cons_append, List.nil_append, runRows_cons, wr_happens, rd_happens, if_true,
      wr_run, rd_run, runRows_nil, setInhibit_mem, jumpToLatched_mem, latchHi_mem, readCycle_mem, latchLo_mem]
    rw [h2 ((s.stored (stackAddr s.regs.s) (hi s.regs.pc)).stored (stackAddr (s.regs.s - 1)) (lo s.regs.pc))]
    · simp [atStack, byte_sub_two]
    · simp only [setI_mem, decS_mem]
      rw [h2 (s.stored (stackAddr s.regs.s) (hi s.regs.pc))]
      · simp [atStack]
      · simp only [decS_mem]
        exact h1 _ (by simp) (by simp) (by simp)
      · simp [stored_hooks]
      · simp [stored_cfg]
    · simp [stored_hooks]
    · simp [stored_cfg]
  have hhooks : (runRows (entryRows vec b) s).hooks = s.hooks := by simp [entryRows, vectorRows]
  have hcfg : (runRows (entryRows vec b) s).cfg = s.cfg := by simp [entryRows, vectorRows]
  have hsplit := runRows_append
    [wr atStack (fun s => hi s.regs.pc) State.decS, wr atStack (fun s => lo s.regs.pc) State.decS,
      wr atStack (fun s => packP b s.regs.p) (fun s => s.decS.setI)] (vectorRows vec) s
  have hv := vectorRows_run vec (runRows
    [wr atStack (fun s => hi s.regs.pc) State.decS, wr atStack (fun s => lo s.regs.pc) State.decS,
      wr atStack (fun s => packP b s.regs.p) (fun s => s.decS.setI)] s)
  rw [← hsplit] at hv
  have hpeek := peek_congr hv.mem hv.rest.cfg
  refine ⟨?_, fun h => ?_, fun h => ?_, hmem, fun a h0 h1 h2 => ?_, ?_⟩
  · simp [entryRows, vectorRows, byte_sub_three]
  · exact (hv.low ((plain_congr (hv.rest.hooks.symm.trans hhooks) vec).mpr h)).trans (hpeek vec).symm
  · exact (hv.high ((plain_congr (hv.rest.hooks.symm.trans hhooks) (vec + 1)).mpr h)).trans (hpeek (vec + 1)).symm
  · rw [peek_congr hmem (hcfg.trans (by simp [stored_cfg]))]
    rw [stored_peek_other, stored_peek_other, stored_peek_other h0]
    · exact (apart_congr (stored_cfg _ _ _) _ _).mpr h1
    · exact (apart_congr ((stored_cfg _ _ _).trans (stored_cfg _ _ _)) _ _).mpr h2
  · constructor <;> simp [entryRows, vectorRows]

theorem entryRows_bus (vec : Word) (b : Bool) {s : State} (hn : s.NoWaits) :
    AddsCycles s (runRows (entryRows vec b) s) (entryCycles vec b s) := by
  have h := (runRows_unwaited (entryRows_quiet vec b) hn).1
  have hp : rowsPins (entryRows vec b) s = entryCycles vec b s := by
    simp [entryRows, vectorRows, rowsPins, atStack, fixedAt, byte_sub_two, entryCycles]
  rwa [hp] at h

/-- BRK after its opcode fetch (R305): the padding byte is skipped, then the entry. -/
structure BrkDone (s t : State) : Prop where
  entry : Enters irqVector true (s.setPc (s.regs.pc + 1)) t
  bus : s.NoWaits → AddsCycles s t (.read s.regs.pc :: entryCycles irqVector true (s.setPc (s.regs.pc + 1)))

theorem Enters.congr_left {vec : Word} {b : Bool} {s s' t : State} (h : Enters vec b s' t) (hr : s'.regs = s.regs)
    (hm : s'.mem = s.mem) (hk : KeepsRest s s') : Enters vec b s t where
  regs := by rw [h.regs, hr]
  low c := h.low ((plain_congr hk.hooks vec).mpr c)
  high c := h.high ((plain_congr hk.hooks (vec + 1)).mpr c)
  mem := by
    rw [h.mem, hr]
    refine stored_mem_congr (stored_mem_congr (stored_mem_congr hm hk.hooks hk.cfg _ _) ?_ ?_ _ _) ?_ ?_ _ _ <;>
      simp only [stored_hooks, stored_cfg, hk.hooks, hk.cfg]
  frame a h0 h1 h2 := by
    have hc := fun b => (apart_congr hk.cfg a b).mpr
    rw [h.frame a (by rw [hr]; exact hc _ h0) (by rw [hr]; exact hc _ h1) (by rw [hr]; exact hc _ h2)]
    exact peek_congr hm hk.cfg a
  rest := ⟨h.rest.seq.trans hk.seq, h.rest.index.trans hk.index, h.rest.hooks.trans hk.hooks, h.rest.cfg.trans hk.cfg,
    h.rest.inhibit, h.rest.ir.trans hk.ir⟩

theorem brkPlan_run (s : State) : BrkDone s (brkPlan.run s) := by
  have hrun : brkPlan.run s = runRows (entryRows irqVector true) (s.readCycle s.regs.pc false).incPc := by
    simp [Plan.run, brkPlan, atPc]
  rw [hrun]
  refine ⟨(entryRows_run _ _ _).congr_left (by simp) (by simp) (by constructor <;> simp), fun hn => ?_⟩
  obtain ⟨h1, n1⟩ := readCycle_unwaited s.regs.pc false hn
  have h2 := entryRows_bus irqVector true (s := (s.readCycle s.regs.pc false).incPc) n1
  have h3 : entryCycles irqVector true (s.readCycle s.regs.pc false).incPc =
      entryCycles irqVector true (s.setPc (s.regs.pc + 1)) := by simp [entryCycles]
  rw [h3] at h2
  exact h1.trans (h2.congr rfl rfl)

/-- The IRQ and NMI sequence (R411): two reads at PC that change nothing, then the entry. -/
structure InterruptDone (vec : Word) (s t : State) : Prop where
  entry : Enters vec false s t
  bus : s.NoWaits → AddsCycles s t (.fetch s.regs.pc :: .read s.regs.pc :: entryCycles vec false s)

theorem interruptRows_run (vec : Word) (s : State) : InterruptDone vec s (runRows (interruptRows vec) s) := by
  have hrun : runRows (interruptRows vec) s =
      runRows (entryRows vec false) ((s.readCycle s.regs.pc true).readCycle s.regs.pc false) := by
    rw [interruptRows, runRows_append]
    simp [atPc]
  rw [hrun]
  refine ⟨(entryRows_run _ _ _).congr_left (by simp) (by simp) (by constructor <;> simp), fun hn => ?_⟩
  obtain ⟨h1, n1⟩ := readCycle_unwaited s.regs.pc true hn
  obtain ⟨h2, n2⟩ := readCycle_unwaited s.regs.pc false n1
  have h3 := entryRows_bus vec false n2
  have h4 : entryCycles vec false ((s.readCycle s.regs.pc true).readCycle s.regs.pc false) = entryCycles vec false s := by
    simp [entryCycles]
  rw [h4] at h3
  exact (h1.trans h2).trans h3

/-! ### Reset and the jammed state -/

/-- What the reset sequence leaves (R450, R451). -/
structure ResetDone (s t : State) : Prop where
  regs : t.regs = { s.regs with
    s := s.regs.s - 3, pc := pair t.latch.adh t.latch.adl, p := { s.regs.p with i := true } }
  low : s.Plain resetVector → t.latch.adl = s.peek resetVector
  high : s.Plain (resetVector + 1) → t.latch.adh = s.peek (resetVector + 1)
  mem : t.mem = s.mem
  rest : KeepsButInhibit s t
  bus : s.NoWaits → AddsCycles s t (resetCycles s)

theorem resetRows_run (s : State) : ResetDone s (runRows (resetRows s.cfg) s) := by
  have hsplit := runRows_append
    ((if s.cfg.resetCycles = 7 then [rd atPc id] else []) ++ [rd atPc id, rd atStack State.decS, rd atStack State.decS,
      rd atStack (fun s => s.decS.setI)]) (vectorRows resetVector) s
  have hv := vectorRows_run resetVector (runRows
    ((if s.cfg.resetCycles = 7 then [rd atPc id] else []) ++ [rd atPc id, rd atStack State.decS, rd atStack State.decS,
      rd atStack (fun s => s.decS.setI)]) s)
  rw [← hsplit] at hv
  have hmem : (runRows
    ((if s.cfg.resetCycles = 7 then [rd atPc id] else []) ++ [rd atPc id, rd atStack State.decS, rd atStack State.decS,
      rd atStack (fun s => s.decS.setI)]) s).mem = s.mem := by split <;> simp
  have hhooks : (runRows
    ((if s.cfg.resetCycles = 7 then [rd atPc id] else []) ++ [rd atPc id, rd atStack State.decS, rd atStack State.decS,
      rd atStack (fun s => s.decS.setI)]) s).hooks = s.hooks := by split <;> simp
  have hcfg : (runRows
    ((if s.cfg.resetCycles = 7 then [rd atPc id] else []) ++ [rd atPc id, rd atStack State.decS, rd atStack State.decS,
      rd atStack (fun s => s.decS.setI)]) s).cfg = s.cfg := by split <;> simp
  refine ⟨?_, fun h => ?_, fun h => ?_, hv.mem.trans hmem, ?_, fun hn => ?_⟩
  · unfold resetRows
    split <;> simp [vectorRows, byte_sub_three]
  · exact (hv.low ((plain_congr hhooks _).mpr h)).trans (peek_congr hmem hcfg _)
  · exact (hv.high ((plain_congr hhooks _).mpr h)).trans (peek_congr hmem hcfg _)
  · unfold resetRows
    constructor <;> split <;> simp [vectorRows]
  · have h := (runRows_unwaited (resetRows_quiet s.cfg) hn).1
    have hp : rowsPins (resetRows s.cfg) s = resetCycles s := by
      unfold resetRows resetCycles
      split <;> simp [vectorRows, rowsPins, atPc, atStack, fixedAt, byte_sub_two]
    rwa [hp] at h

/-- One jammed tick (R56). -/
structure JammedTick (s t : State) : Prop where
  regs : t.regs = s.regs
  mem : t.mem = s.mem
  rest : KeepsRest s t
  bus : s.NoWaits → AddsCycles s t [.read 0xFFFF]

theorem jamRows_run (s : State) : JammedTick s (runRows jamRows s) where
  regs := by simp [jamRows]
  mem := by simp [jamRows]
  rest := by constructor <;> simp [jamRows]
  bus hn := (runRows_unwaited jamRows_quiet hn).1

/-! ### Jumps, calls and returns -/

/-- What JMP absolute leaves (R300): no cycle beside the operand fetches. -/
structure JumpDone (target : Word) (s t : State) : Prop where
  regs : t.regs = { s.regs with pc := target }
  mem : t.mem = s.mem
  rest : KeepsRest s t
  bus : AddsCycles s t []

theorem jumpPlan_run (w : Word) (s : State) : JumpDone w s (jumpPlan.run (operand16 w s)) where
  regs := by simp [Plan.run, jumpPlan]
  mem := rfl
  rest := ⟨rfl, rfl, rfl, rfl, rfl, rfl⟩
  bus := rfl

/-- What JMP indirect leaves (R301, R186). -/
structure JumpIndirectDone (ptr : Word) (s t : State) : Prop where
  regs : t.regs = { s.regs with pc := pair t.latch.adh t.latch.adl }
  low : s.Plain ptr → t.latch.adl = s.peek ptr
  high : s.Plain (pair (hi ptr) (lo ptr + 1)) → t.latch.adh = s.peek (pair (hi ptr) (lo ptr + 1))
  mem : t.mem = s.mem
  rest : KeepsRest s t
  bus : s.NoWaits → AddsCycles s t [.read ptr, .read (pair (hi ptr) (lo ptr + 1))]

theorem jumpIndirectPlan_run (w : Word) (s : State) : JumpIndirectDone w s (jumpIndirectPlan.run (operand16 w s)) where
  regs := by simp [Plan.run, jumpIndirectPlan, formAddress]
  low h := by
    have hd := fun t hh hm hc => readCycle_plain (t := t) h hh hm hc false
    simp [Plan.run, jumpIndirectPlan, formAddress, atEa]
    exact hd _ rfl rfl rfl
  high h := by
    have hd := fun t hh hm hc => readCycle_plain (t := t) h hh hm hc false
    simp [Plan.run, jumpIndirectPlan, formAddress, atEaNext]
    exact hd _ (by simp) (by simp) (by simp)
  mem := by simp [Plan.run, jumpIndirectPlan, formAddress]
  rest := by constructor <;> simp [Plan.run, jumpIndirectPlan, formAddress]
  bus hn := by
    have hq : Quiet s (jumpIndirectPlan.start (operand16 w s)) := (operand16_quiet w s).trans (jumpIndirectPlan_quiet.1 _)
    have h := (runRows_unwaited jumpIndirectPlan_quiet.2 (hq.noWaits hn)).1
    have hp : rowsPins jumpIndirectPlan.rows (jumpIndirectPlan.start (operand16 w s)) =
        [.read w, .read (pair (hi w) (lo w + 1))] := by
      simp [jumpIndirectPlan, formAddress, rowsPins, atEa, atEaNext]
    rw [hp] at h
    exact h.congr hq.trace.symm rfl

/-- What JSR leaves after its opcode and low target byte have been fetched (R302). -/
structure JsrDone (target : Byte) (s t : State) : Prop where
  regs : t.regs = { s.regs with s := s.regs.s - 2, pc := pair t.latch.dl target }
  high : s.Plain s.regs.pc → t.latch.dl = t.peek s.regs.pc
  mem : t.mem = ((s.stored (stackAddr s.regs.s) (hi s.regs.pc)).stored (stackAddr (s.regs.s - 1)) (lo s.regs.pc)).mem
  frame : ∀ a, s.Apart a (stackAddr s.regs.s) → s.Apart a (stackAddr (s.regs.s - 1)) → t.peek a = s.peek a
  rest : KeepsRest s t
  bus : s.NoWaits → AddsCycles s t [.read (stackAddr s.regs.s), .write (stackAddr s.regs.s) (hi s.regs.pc),
    .write (stackAddr (s.regs.s - 1)) (lo s.regs.pc), .read s.regs.pc]

theorem jsrPlan_run (b : Byte) (s : State) : JsrDone b s (jsrPlan.run (operand8 b s)) := by
  have hmem : (jsrPlan.run (operand8 b s)).mem =
      ((s.stored (stackAddr s.regs.s) (hi s.regs.pc)).stored (stackAddr (s.regs.s - 1)) (lo s.regs.pc)).mem := by
    have h2 : ∀ (s0 s1 : State) (a : Word) (v : Byte), s1.mem = s0.mem → s1.hooks = s0.hooks → s1.cfg = s0.cfg →
        (s1.writeCycle a v).mem = (s0.stored a v).mem :=
      fun s0 s1 a v hm hh hc => (writeCycle_stored _ _ _).trans (stored_mem_congr hm hh hc _ _)
    simp only [Plan.run, jsrPlan, id_eq, runRows_cons, wr_happens, rd_happens, if_true,
      wr_run, rd_run, runRows_nil, jumpToLatched_mem, latchHi_mem, readCycle_mem]
    rw [h2 (s.stored (stackAddr s.regs.s) (hi s.regs.pc))]
    · simp [atStack]
    · simp only [decS_mem]
      rw [h2 s]
      · simp [atStack]
      · simp
      · simp
      · simp
    · simp [stored_hooks]
    · simp [stored_cfg]
  have hhooks : (jsrPlan.run (operand8 b s)).hooks = s.hooks := by simp [Plan.run, jsrPlan]
  have hcfg : (jsrPlan.run (operand8 b s)).cfg = s.cfg := by simp [Plan.run, jsrPlan]
  refine ⟨?_, fun h => ?_, hmem, fun a h0 h1 => ?_, ?_, fun hn => ?_⟩
  · simp [Plan.run, jsrPlan, byte_sub_two]
  · have hF : (jsrPlan.run (operand8 b s)).Plain s.regs.pc := (plain_congr hhooks _).mpr h
    have hd := fun t hh hm hc => readCycle_plain (t := t) hF hh hm hc false
    rw [← hd (((((operand8 b s).readCycle (stackAddr s.regs.s) false).decS).writeCycle (stackAddr s.regs.s)
      (hi s.regs.pc)).decS.writeCycle (stackAddr (s.regs.s - 1)) (lo s.regs.pc))]
    · simp [Plan.run, jsrPlan, atStack, atPc]
    · simp [Plan.run, jsrPlan]
    · simp [Plan.run, jsrPlan, atStack]
    · simp [Plan.run, jsrPlan]
  · rw [peek_congr hmem (hcfg.trans (by simp [stored_cfg]))]
    rw [stored_peek_other, stored_peek_other h0]
    exact (apart_congr (stored_cfg _ _ _) _ _).mpr h1
  · constructor <;> simp [Plan.run, jsrPlan]
  · have h := (runRows_unwaited jsrPlan_quiet.2 (s := operand8 b s) hn).1
    have hp : rowsPins jsrPlan.rows (operand8 b s) = [.read (stackAddr s.regs.s),
        .write (stackAddr s.regs.s) (hi s.regs.pc), .write (stackAddr (s.regs.s - 1)) (lo s.regs.pc), .read s.regs.pc] := by
      simp [jsrPlan, rowsPins, atPc, atStack]
    rw [hp] at h
    exact h.congr rfl rfl

/-- What RTS leaves (R303). -/
structure RtsDone (s t : State) : Prop where
  regs : t.regs = { s.regs with s := s.regs.s + 2, pc := pair t.latch.adh t.latch.adl + 1 }
  low : s.Plain (stackAddr (s.regs.s + 1)) → t.latch.adl = s.peek (stackAddr (s.regs.s + 1))
  high : s.Plain (stackAddr (s.regs.s + 2)) → t.latch.adh = s.peek (stackAddr (s.regs.s + 2))
  mem : t.mem = s.mem
  rest : KeepsRest s t
  bus : s.NoWaits → AddsCycles s t [.read s.regs.pc, .read (stackAddr s.regs.s), .read (stackAddr (s.regs.s + 1)),
    .read (stackAddr (s.regs.s + 2)), .read (pair t.latch.adh t.latch.adl)]

theorem rtsPlan_run (s : State) : RtsDone s (rtsPlan.run s) where
  regs := by simp [Plan.run, rtsPlan, byte_add_two]
  low h := by
    have hd := fun t hh hm hc => readCycle_plain (t := t) h hh hm hc false
    simp [Plan.run, rtsPlan, atStack]
    exact hd _ (by simp) (by simp) (by simp)
  high h := by
    have hd := fun t hh hm hc => readCycle_plain (t := t) h hh hm hc false
    simp [Plan.run, rtsPlan, atStack, byte_add_two]
    exact hd _ (by simp) (by simp) (by simp)
  mem := by simp [Plan.run, rtsPlan]
  rest := by constructor <;> simp [Plan.run, rtsPlan]
  bus hn := by
    have h := (runRows_unwaited rtsPlan_quiet.2 hn).1
    have hp : rowsPins rtsPlan.rows s = [.read s.regs.pc, .read (stackAddr s.regs.s), .read (stackAddr (s.regs.s + 1)),
        .read (stackAddr (s.regs.s + 2)), .read (pair (rtsPlan.run s).latch.adh (rtsPlan.run s).latch.adl)] := by
      simp [Plan.run, rtsPlan, rowsPins, atPc, atStack, byte_add_two]
    rwa [hp] at h

/-- What RTI leaves, and any return through the same table (R304). `p` is the pulled status byte. -/
structure ReturnDone (s t : State) : Prop where
  regs : ∃ p : Byte, t.regs = { s.regs with s := s.regs.s + 3, pc := pair t.latch.adh t.latch.adl, p := unpackP p } ∧
    (s.Plain (stackAddr (s.regs.s + 1)) → p = s.peek (stackAddr (s.regs.s + 1)))
  low : s.Plain (stackAddr (s.regs.s + 2)) → t.latch.adl = s.peek (stackAddr (s.regs.s + 2))
  high : s.Plain (stackAddr (s.regs.s + 3)) → t.latch.adh = s.peek (stackAddr (s.regs.s + 3))
  mem : t.mem = s.mem
  rest : KeepsRest s t
  bus : s.NoWaits → AddsCycles s t [.read s.regs.pc, .read (stackAddr s.regs.s), .read (stackAddr (s.regs.s + 1)),
    .read (stackAddr (s.regs.s + 2)), .read (stackAddr (s.regs.s + 3))]

theorem rtiPlan_run (s : State) : ReturnDone s (rtiPlan.run s) where
  regs := by
    refine ⟨(((s.readCycle s.regs.pc false).readCycle (stackAddr s.regs.s) false).incS.readCycle
      (stackAddr (s.regs.s + 1)) false).latch.dl, ?_, fun h => ?_⟩
    · simp [Plan.run, rtiPlan, returnRows, atPc, atStack, byte_add_three]
    · exact readCycle_plain h (by simp) (by simp) (by simp) false
  low h := by
    have hd := fun t hh hm hc => readCycle_plain (t := t) h hh hm hc false
    simp [Plan.run, rtiPlan, returnRows, atStack, byte_add_two]
    exact hd _ (by simp) (by simp) (by simp)
  high h := by
    have hd := fun t hh hm hc => readCycle_plain (t := t) h hh hm hc false
    simp [Plan.run, rtiPlan, returnRows, atStack, byte_add_three]
    exact hd _ (by simp) (by simp) (by simp)
  mem := by simp [Plan.run, rtiPlan, returnRows]
  rest := by constructor <;> simp [Plan.run, rtiPlan, returnRows]
  bus hn := by
    have h := (runRows_unwaited rtiPlan_quiet.2 hn).1
    have hp : rowsPins rtiPlan.rows s = [.read s.regs.pc, .read (stackAddr s.regs.s), .read (stackAddr (s.regs.s + 1)),
        .read (stackAddr (s.regs.s + 2)), .read (stackAddr (s.regs.s + 3))] := by
      simp [rtiPlan, returnRows, rowsPins, atPc, atStack, byte_add_two, byte_two_add_one]
    rwa [hp] at h

/-- What a JAM opcode leaves (R372). -/
structure JamDone (s t : State) : Prop where
  regs : t.regs = s.regs
  mem : t.mem = s.mem
  seq : t.seq = .jammed
  rest : t.t = s.t ∧ t.hooks = s.hooks ∧ t.cfg = s.cfg ∧ t.ctl.inhibit = s.ctl.inhibit ∧ t.latch.ir = s.latch.ir
  bus : s.NoWaits → AddsCycles s t [.read s.regs.pc]

theorem jamPlan_run (s : State) : JamDone s (jamPlan.run s) where
  regs := by simp [Plan.run, jamPlan]
  mem := by simp [Plan.run, jamPlan]
  seq := by simp [Plan.run, jamPlan]
  rest := by simp [Plan.run, jamPlan]
  bus hn := (runRows_unwaited jamPlan_quiet.2 hn).1

end Sys2Proof.Machine
end

