-- ==== Sys2Proof/Laws/Exec.lean ====
section
/-!
SUPPORT. Every meaning is the run of a quiet plan, so that one induction over cycle tables serves all 256.
-/

namespace Sys2Proof.Machine

/-- The answer is the run of some quiet plan from `s` with the operand latched. -/
def RunsPlan (s : State) (answer : Result) : Prop :=
  ∃ (p : Plan) (s0 : State), p.IsQuiet ∧ Quiet s s0 ∧ answer = .next (p.run s0)

theorem runPlan0_runs {p : Plan} (h : p.IsQuiet) (s : State) : RunsPlan s (runPlan0 p s) := ⟨p, s, h, Quiet.refl s, rfl⟩

theorem runPlan8_runs {p : Plan} (h : p.IsQuiet) (b : Byte) (s : State) : RunsPlan s (runPlan8 p b s) :=
  ⟨p, _, h, operand8_quiet b s, rfl⟩

theorem runPlan16_runs {p : Plan} (h : p.IsQuiet) (w : Word) (s : State) : RunsPlan s (runPlan16 p w s) :=
  ⟨p, _, h, operand16_quiet w s, rfl⟩

/-- Every instruction's meaning runs a quiet plan. -/
theorem exec_runs (i : Instr) (s : State) : RunsPlan s (exec i s) :=
  match i with
  | .brk => runPlan0_runs brkPlan_quiet s
  | .oraIndX b => runPlan8_runs (readPlan_quiet _ _) b s
  | .jam02 => runPlan0_runs jamPlan_quiet s
  | .sloIndX b => runPlan8_runs (rmwPlan_quiet _ _) b s
  | .nopZp04 b => runPlan8_runs (readPlan_quiet _ _) b s
  | .oraZp b => runPlan8_runs (readPlan_quiet _ _) b s
  | .aslZp b => runPlan8_runs (rmwPlan_quiet _ _) b s
  | .sloZp b => runPlan8_runs (rmwPlan_quiet _ _) b s
  | .php => runPlan0_runs (pushPlan_quiet _) s
  | .oraImm b => runPlan8_runs (readPlan_quiet _ _) b s
  | .aslAcc => runPlan0_runs (accumulatorPlan_quiet _) s
  | .ancImm0B b => runPlan8_runs (readPlan_quiet _ _) b s
  | .nopAbs w => runPlan16_runs (readPlan_quiet _ _) w s
  | .oraAbs w => runPlan16_runs (readPlan_quiet _ _) w s
  | .aslAbs w => runPlan16_runs (rmwPlan_quiet _ _) w s
  | .sloAbs w => runPlan16_runs (rmwPlan_quiet _ _) w s
  | .bpl b => runPlan8_runs (branchPlan_quiet _) b s
  | .oraIndY b => runPlan8_runs (readPlan_quiet _ _) b s
  | .jam12 => runPlan0_runs jamPlan_quiet s
  | .sloIndY b => runPlan8_runs (rmwPlan_quiet _ _) b s
  | .nopZpX14 b => runPlan8_runs (readPlan_quiet _ _) b s
  | .oraZpX b => runPlan8_runs (readPlan_quiet _ _) b s
  | .aslZpX b => runPlan8_runs (rmwPlan_quiet _ _) b s
  | .sloZpX b => runPlan8_runs (rmwPlan_quiet _ _) b s
  | .clc => runPlan0_runs (internalPlan_quiet _) s
  | .oraAbsY w => runPlan16_runs (readPlan_quiet _ _) w s
  | .nop1A => runPlan0_runs (internalPlan_quiet _) s
  | .sloAbsY w => runPlan16_runs (rmwPlan_quiet _ _) w s
  | .nopAbsX1C w => runPlan16_runs (readPlan_quiet _ _) w s
  | .oraAbsX w => runPlan16_runs (readPlan_quiet _ _) w s
  | .aslAbsX w => runPlan16_runs (rmwPlan_quiet _ _) w s
  | .sloAbsX w => runPlan16_runs (rmwPlan_quiet _ _) w s
  | .jsr w => runPlan8_runs jsrPlan_quiet (lo w) s
  | .andIndX b => runPlan8_runs (readPlan_quiet _ _) b s
  | .jam22 => runPlan0_runs jamPlan_quiet s
  | .rlaIndX b => runPlan8_runs (rmwPlan_quiet _ _) b s
  | .bitZp b => runPlan8_runs (readPlan_quiet _ _) b s
  | .andZp b => runPlan8_runs (readPlan_quiet _ _) b s
  | .rolZp b => runPlan8_runs (rmwPlan_quiet _ _) b s
  | .rlaZp b => runPlan8_runs (rmwPlan_quiet _ _) b s
  | .plp => runPlan0_runs plpPlan_quiet s
  | .andImm b => runPlan8_runs (readPlan_quiet _ _) b s
  | .rolAcc => runPlan0_runs (accumulatorPlan_quiet _) s
  | .ancImm2B b => runPlan8_runs (readPlan_quiet _ _) b s
  | .bitAbs w => runPlan16_runs (readPlan_quiet _ _) w s
  | .andAbs w => runPlan16_runs (readPlan_quiet _ _) w s
  | .rolAbs w => runPlan16_runs (rmwPlan_quiet _ _) w s
  | .rlaAbs w => runPlan16_runs (rmwPlan_quiet _ _) w s
  | .bmi b => runPlan8_runs (branchPlan_quiet _) b s
  | .andIndY b => runPlan8_runs (readPlan_quiet _ _) b s
  | .jam32 => runPlan0_runs jamPlan_quiet s
  | .rlaIndY b => runPlan8_runs (rmwPlan_quiet _ _) b s
  | .nopZpX34 b => runPlan8_runs (readPlan_quiet _ _) b s
  | .andZpX b => runPlan8_runs (readPlan_quiet _ _) b s
  | .rolZpX b => runPlan8_runs (rmwPlan_quiet _ _) b s
  | .rlaZpX b => runPlan8_runs (rmwPlan_quiet _ _) b s
  | .sec => runPlan0_runs (internalPlan_quiet _) s
  | .andAbsY w => runPlan16_runs (readPlan_quiet _ _) w s
  | .nop3A => runPlan0_runs (internalPlan_quiet _) s
  | .rlaAbsY w => runPlan16_runs (rmwPlan_quiet _ _) w s
  | .nopAbsX3C w => runPlan16_runs (readPlan_quiet _ _) w s
  | .andAbsX w => runPlan16_runs (readPlan_quiet _ _) w s
  | .rolAbsX w => runPlan16_runs (rmwPlan_quiet _ _) w s
  | .rlaAbsX w => runPlan16_runs (rmwPlan_quiet _ _) w s
  | .rti => runPlan0_runs rtiPlan_quiet s
  | .eorIndX b => runPlan8_runs (readPlan_quiet _ _) b s
  | .jam42 => runPlan0_runs jamPlan_quiet s
  | .sreIndX b => runPlan8_runs (rmwPlan_quiet _ _) b s
  | .nopZp44 b => runPlan8_runs (readPlan_quiet _ _) b s
  | .eorZp b => runPlan8_runs (readPlan_quiet _ _) b s
  | .lsrZp b => runPlan8_runs (rmwPlan_quiet _ _) b s
  | .sreZp b => runPlan8_runs (rmwPlan_quiet _ _) b s
  | .pha => runPlan0_runs (pushPlan_quiet _) s
  | .eorImm b => runPlan8_runs (readPlan_quiet _ _) b s
  | .lsrAcc => runPlan0_runs (accumulatorPlan_quiet _) s
  | .alrImm b => runPlan8_runs (readPlan_quiet _ _) b s
  | .jmpAbs w => runPlan16_runs jumpPlan_quiet w s
  | .eorAbs w => runPlan16_runs (readPlan_quiet _ _) w s
  | .lsrAbs w => runPlan16_runs (rmwPlan_quiet _ _) w s
  | .sreAbs w => runPlan16_runs (rmwPlan_quiet _ _) w s
  | .bvc b => runPlan8_runs (branchPlan_quiet _) b s
  | .eorIndY b => runPlan8_runs (readPlan_quiet _ _) b s
  | .jam52 => runPlan0_runs jamPlan_quiet s
  | .sreIndY b => runPlan8_runs (rmwPlan_quiet _ _) b s
  | .nopZpX54 b => runPlan8_runs (readPlan_quiet _ _) b s
  | .eorZpX b => runPlan8_runs (readPlan_quiet _ _) b s
  | .lsrZpX b => runPlan8_runs (rmwPlan_quiet _ _) b s
  | .sreZpX b => runPlan8_runs (rmwPlan_quiet _ _) b s
  | .cli => runPlan0_runs (internalPlan_quiet _) s
  | .eorAbsY w => runPlan16_runs (readPlan_quiet _ _) w s
  | .nop5A => runPlan0_runs (internalPlan_quiet _) s
  | .sreAbsY w => runPlan16_runs (rmwPlan_quiet _ _) w s
  | .nopAbsX5C w => runPlan16_runs (readPlan_quiet _ _) w s
  | .eorAbsX w => runPlan16_runs (readPlan_quiet _ _) w s
  | .lsrAbsX w => runPlan16_runs (rmwPlan_quiet _ _) w s
  | .sreAbsX w => runPlan16_runs (rmwPlan_quiet _ _) w s
  | .rts => runPlan0_runs rtsPlan_quiet s
  | .adcIndX b => runPlan8_runs (readPlan_quiet _ _) b s
  | .jam62 => runPlan0_runs jamPlan_quiet s
  | .rraIndX b => runPlan8_runs (rmwPlan_quiet _ _) b s
  | .nopZp64 b => runPlan8_runs (readPlan_quiet _ _) b s
  | .adcZp b => runPlan8_runs (readPlan_quiet _ _) b s
  | .rorZp b => runPlan8_runs (rmwPlan_quiet _ _) b s
  | .rraZp b => runPlan8_runs (rmwPlan_quiet _ _) b s
  | .pla => runPlan0_runs plaPlan_quiet s
  | .adcImm b => runPlan8_runs (readPlan_quiet _ _) b s
  | .rorAcc => runPlan0_runs (accumulatorPlan_quiet _) s
  | .arrImm b => runPlan8_runs (readPlan_quiet _ _) b s
  | .jmpInd w => runPlan16_runs jumpIndirectPlan_quiet w s
  | .adcAbs w => runPlan16_runs (readPlan_quiet _ _) w s
  | .rorAbs w => runPlan16_runs (rmwPlan_quiet _ _) w s
  | .rraAbs w => runPlan16_runs (rmwPlan_quiet _ _) w s
  | .bvs b => runPlan8_runs (branchPlan_quiet _) b s
  | .adcIndY b => runPlan8_runs (readPlan_quiet _ _) b s
  | .jam72 => runPlan0_runs jamPlan_quiet s
  | .rraIndY b => runPlan8_runs (rmwPlan_quiet _ _) b s
  | .nopZpX74 b => runPlan8_runs (readPlan_quiet _ _) b s
  | .adcZpX b => runPlan8_runs (readPlan_quiet _ _) b s
  | .rorZpX b => runPlan8_runs (rmwPlan_quiet _ _) b s
  | .rraZpX b => runPlan8_runs (rmwPlan_quiet _ _) b s
  | .sei => runPlan0_runs (internalPlan_quiet _) s
  | .adcAbsY w => runPlan16_runs (readPlan_quiet _ _) w s
  | .nop7A => runPlan0_runs (internalPlan_quiet _) s
  | .rraAbsY w => runPlan16_runs (rmwPlan_quiet _ _) w s
  | .nopAbsX7C w => runPlan16_runs (readPlan_quiet _ _) w s
  | .adcAbsX w => runPlan16_runs (readPlan_quiet _ _) w s
  | .rorAbsX w => runPlan16_runs (rmwPlan_quiet _ _) w s
  | .rraAbsX w => runPlan16_runs (rmwPlan_quiet _ _) w s
  | .nopImm80 b => runPlan8_runs (readPlan_quiet _ _) b s
  | .staIndX b => runPlan8_runs (writePlan_quiet _ _) b s
  | .nopImm82 b => runPlan8_runs (readPlan_quiet _ _) b s
  | .saxIndX b => runPlan8_runs (writePlan_quiet _ _) b s
  | .styZp b => runPlan8_runs (writePlan_quiet _ _) b s
  | .staZp b => runPlan8_runs (writePlan_quiet _ _) b s
  | .stxZp b => runPlan8_runs (writePlan_quiet _ _) b s
  | .saxZp b => runPlan8_runs (writePlan_quiet _ _) b s
  | .dey => runPlan0_runs (internalPlan_quiet _) s
  | .nopImm89 b => runPlan8_runs (readPlan_quiet _ _) b s
  | .txa => runPlan0_runs (internalPlan_quiet _) s
  | .aneImm b => runPlan8_runs (readPlan_quiet _ _) b s
  | .styAbs w => runPlan16_runs (writePlan_quiet _ _) w s
  | .staAbs w => runPlan16_runs (writePlan_quiet _ _) w s
  | .stxAbs w => runPlan16_runs (writePlan_quiet _ _) w s
  | .saxAbs w => runPlan16_runs (writePlan_quiet _ _) w s
  | .bcc b => runPlan8_runs (branchPlan_quiet _) b s
  | .staIndY b => runPlan8_runs (writePlan_quiet _ _) b s
  | .jam92 => runPlan0_runs jamPlan_quiet s
  | .shaIndY b => runPlan8_runs (highBytePlan_quiet _ _ Quiet.refl) b s
  | .styZpX b => runPlan8_runs (writePlan_quiet _ _) b s
  | .staZpX b => runPlan8_runs (writePlan_quiet _ _) b s
  | .stxZpY b => runPlan8_runs (writePlan_quiet _ _) b s
  | .saxZpY b => runPlan8_runs (writePlan_quiet _ _) b s
  | .tya => runPlan0_runs (internalPlan_quiet _) s
  | .staAbsY w => runPlan16_runs (writePlan_quiet _ _) w s
  | .txs => runPlan0_runs (internalPlan_quiet _) s
  | .tasAbsY w => runPlan16_runs (highBytePlan_quiet _ _ fun _ => quiet_regs _) w s
  | .shyAbsX w => runPlan16_runs (highBytePlan_quiet _ _ Quiet.refl) w s
  | .staAbsX w => runPlan16_runs (writePlan_quiet _ _) w s
  | .shxAbsY w => runPlan16_runs (highBytePlan_quiet _ _ Quiet.refl) w s
  | .shaAbsY w => runPlan16_runs (highBytePlan_quiet _ _ Quiet.refl) w s
  | .ldyImm b => runPlan8_runs (readPlan_quiet _ _) b s
  | .ldaIndX b => runPlan8_runs (readPlan_quiet _ _) b s
  | .ldxImm b => runPlan8_runs (readPlan_quiet _ _) b s
  | .laxIndX b => runPlan8_runs (readPlan_quiet _ _) b s
  | .ldyZp b => runPlan8_runs (readPlan_quiet _ _) b s
  | .ldaZp b => runPlan8_runs (readPlan_quiet _ _) b s
  | .ldxZp b => runPlan8_runs (readPlan_quiet _ _) b s
  | .laxZp b => runPlan8_runs (readPlan_quiet _ _) b s
  | .tay => runPlan0_runs (internalPlan_quiet _) s
  | .ldaImm b => runPlan8_runs (readPlan_quiet _ _) b s
  | .tax => runPlan0_runs (internalPlan_quiet _) s
  | .lxaImm b => runPlan8_runs (readPlan_quiet _ _) b s
  | .ldyAbs w => runPlan16_runs (readPlan_quiet _ _) w s
  | .ldaAbs w => runPlan16_runs (readPlan_quiet _ _) w s
  | .ldxAbs w => runPlan16_runs (readPlan_quiet _ _) w s
  | .laxAbs w => runPlan16_runs (readPlan_quiet _ _) w s
  | .bcs b => runPlan8_runs (branchPlan_quiet _) b s
  | .ldaIndY b => runPlan8_runs (readPlan_quiet _ _) b s
  | .jamB2 => runPlan0_runs jamPlan_quiet s
  | .laxIndY b => runPlan8_runs (readPlan_quiet _ _) b s
  | .ldyZpX b => runPlan8_runs (readPlan_quiet _ _) b s
  | .ldaZpX b => runPlan8_runs (readPlan_quiet _ _) b s
  | .ldxZpY b => runPlan8_runs (readPlan_quiet _ _) b s
  | .laxZpY b => runPlan8_runs (readPlan_quiet _ _) b s
  | .clv => runPlan0_runs (internalPlan_quiet _) s
  | .ldaAbsY w => runPlan16_runs (readPlan_quiet _ _) w s
  | .tsx => runPlan0_runs (internalPlan_quiet _) s
  | .lasAbsY w => runPlan16_runs (readPlan_quiet _ _) w s
  | .ldyAbsX w => runPlan16_runs (readPlan_quiet _ _) w s
  | .ldaAbsX w => runPlan16_runs (readPlan_quiet _ _) w s
  | .ldxAbsY w => runPlan16_runs (readPlan_quiet _ _) w s
  | .laxAbsY w => runPlan16_runs (readPlan_quiet _ _) w s
  | .cpyImm b => runPlan8_runs (readPlan_quiet _ _) b s
  | .cmpIndX b => runPlan8_runs (readPlan_quiet _ _) b s
  | .nopImmC2 b => runPlan8_runs (readPlan_quiet _ _) b s
  | .dcpIndX b => runPlan8_runs (rmwPlan_quiet _ _) b s
  | .cpyZp b => runPlan8_runs (readPlan_quiet _ _) b s
  | .cmpZp b => runPlan8_runs (readPlan_quiet _ _) b s
  | .decZp b => runPlan8_runs (rmwPlan_quiet _ _) b s
  | .dcpZp b => runPlan8_runs (rmwPlan_quiet _ _) b s
  | .iny => runPlan0_runs (internalPlan_quiet _) s
  | .cmpImm b => runPlan8_runs (readPlan_quiet _ _) b s
  | .dex => runPlan0_runs (internalPlan_quiet _) s
  | .sbxImm b => runPlan8_runs (readPlan_quiet _ _) b s
  | .cpyAbs w => runPlan16_runs (readPlan_quiet _ _) w s
  | .cmpAbs w => runPlan16_runs (readPlan_quiet _ _) w s
  | .decAbs w => runPlan16_runs (rmwPlan_quiet _ _) w s
  | .dcpAbs w => runPlan16_runs (rmwPlan_quiet _ _) w s
  | .bne b => runPlan8_runs (branchPlan_quiet _) b s
  | .cmpIndY b => runPlan8_runs (readPlan_quiet _ _) b s
  | .jamD2 => runPlan0_runs jamPlan_quiet s
  | .dcpIndY b => runPlan8_runs (rmwPlan_quiet _ _) b s
  | .nopZpXD4 b => runPlan8_runs (readPlan_quiet _ _) b s
  | .cmpZpX b => runPlan8_runs (readPlan_quiet _ _) b s
  | .decZpX b => runPlan8_runs (rmwPlan_quiet _ _) b s
  | .dcpZpX b => runPlan8_runs (rmwPlan_quiet _ _) b s
  | .cld => runPlan0_runs (internalPlan_quiet _) s
  | .cmpAbsY w => runPlan16_runs (readPlan_quiet _ _) w s
  | .nopDA => runPlan0_runs (internalPlan_quiet _) s
  | .dcpAbsY w => runPlan16_runs (rmwPlan_quiet _ _) w s
  | .nopAbsXDC w => runPlan16_runs (readPlan_quiet _ _) w s
  | .cmpAbsX w => runPlan16_runs (readPlan_quiet _ _) w s
  | .decAbsX w => runPlan16_runs (rmwPlan_quiet _ _) w s
  | .dcpAbsX w => runPlan16_runs (rmwPlan_quiet _ _) w s
  | .cpxImm b => runPlan8_runs (readPlan_quiet _ _) b s
  | .sbcIndX b => runPlan8_runs (readPlan_quiet _ _) b s
  | .nopImmE2 b => runPlan8_runs (readPlan_quiet _ _) b s
  | .iscIndX b => runPlan8_runs (rmwPlan_quiet _ _) b s
  | .cpxZp b => runPlan8_runs (readPlan_quiet _ _) b s
  | .sbcZp b => runPlan8_runs (readPlan_quiet _ _) b s
  | .incZp b => runPlan8_runs (rmwPlan_quiet _ _) b s
  | .iscZp b => runPlan8_runs (rmwPlan_quiet _ _) b s
  | .inx => runPlan0_runs (internalPlan_quiet _) s
  | .sbcImm b => runPlan8_runs (readPlan_quiet _ _) b s
  | .nop => runPlan0_runs (internalPlan_quiet _) s
  | .usbcImm b => runPlan8_runs (readPlan_quiet _ _) b s
  | .cpxAbs w => runPlan16_runs (readPlan_quiet _ _) w s
  | .sbcAbs w => runPlan16_runs (readPlan_quiet _ _) w s
  | .incAbs w => runPlan16_runs (rmwPlan_quiet _ _) w s
  | .iscAbs w => runPlan16_runs (rmwPlan_quiet _ _) w s
  | .beq b => runPlan8_runs (branchPlan_quiet _) b s
  | .sbcIndY b => runPlan8_runs (readPlan_quiet _ _) b s
  | .jamF2 => runPlan0_runs jamPlan_quiet s
  | .iscIndY b => runPlan8_runs (rmwPlan_quiet _ _) b s
  | .nopZpXF4 b => runPlan8_runs (readPlan_quiet _ _) b s
  | .sbcZpX b => runPlan8_runs (readPlan_quiet _ _) b s
  | .incZpX b => runPlan8_runs (rmwPlan_quiet _ _) b s
  | .iscZpX b => runPlan8_runs (rmwPlan_quiet _ _) b s
  | .sed => runPlan0_runs (internalPlan_quiet _) s
  | .sbcAbsY w => runPlan16_runs (readPlan_quiet _ _) w s
  | .nopFA => runPlan0_runs (internalPlan_quiet _) s
  | .iscAbsY w => runPlan16_runs (rmwPlan_quiet _ _) w s
  | .nopAbsXFC w => runPlan16_runs (readPlan_quiet _ _) w s
  | .sbcAbsX w => runPlan16_runs (readPlan_quiet _ _) w s
  | .incAbsX w => runPlan16_runs (rmwPlan_quiet _ _) w s
  | .iscAbsX w => runPlan16_runs (rmwPlan_quiet _ _) w s

/-- What every cycle and every quiet action keeps, every instruction keeps. -/
theorem CycleRel.exec {R : State → State → Prop} (hR : CycleRel R) {i : Instr} {s t : State}
    (h : Machine.exec i s = .next t) : R s t := by
  obtain ⟨p, s0, hp, hq, he⟩ := exec_runs i s
  rw [he, Host.Outcome.next.injEq] at h
  exact h ▸ hR.trans (hR.quiet hq) (hR.plan hp s0)

end Sys2Proof.Machine
end

