-- ==== Sys2Proof/Laws/Step.lean ====
section
/-!
SUPPORT. What a step can be, and what the fetch, the other sequences and the boundary decision keep.
-/

namespace Sys2Proof.Machine

theorem CycleRel.fetch {R : State → State → Prop} (hR : CycleRel R) (s : State) : R { s with seq := .instr } s.fetchInstr := by
  have hf : ∀ u : State, Quiet u (fetchRow.act u) := fun _ => Quiet.of_regs_latch _ _
  have ho : ∀ n, QuietRows (operandRows n)
    | 0 => .nil
    | 1 => .cons (fun _ => Quiet.of_regs_latch _ _) .nil
    | _ + 2 => .cons (fun _ => Quiet.of_regs_latch _ _) (.cons (fun _ => Quiet.of_regs_latch _ _) .nil)
  exact hR.trans (hR.row hf _) (hR.rows (ho _) _)

theorem CycleRel.sequence {R : State → State → Prop} (hR : CycleRel R) (q : Seq) (s : State) :
    R { s with seq := restingSeq q } (s.runSequence q) :=
  hR.rows (sequenceRows_quiet q s.cfg) _

/-- What a step can be: the rest of a sequence left in the middle, an instruction, or a sequence that is no instruction. -/
theorem step_cases {s t : State} (h : step s = .next t) :
    (s.t ≠ 0 ∧ t = s.resume) ∨
    (s.t = 0 ∧ ∃ s1, s.firstTick.boundary = (.instr, s1) ∧ exec s1.fetchInstr.fetched s1.fetchInstr = .next t) ∨
    (s.t = 0 ∧ ∃ q s1, q ≠ .instr ∧ s.firstTick.boundary = (q, s1) ∧ t = s1.runSequence q) := by
  unfold step at h
  by_cases ht : s.t = 0
  · rw [if_pos ht] at h
    cases hb : s.firstTick.boundary with
    | mk q s1 =>
      rw [hb] at h
      cases q with
      | instr => exact .inr (.inl ⟨ht, s1, rfl, h⟩)
      | irq => exact .inr (.inr ⟨ht, .irq, s1, nofun, rfl, (Host.Outcome.next.inj h).symm⟩)
      | nmi => exact .inr (.inr ⟨ht, .nmi, s1, nofun, rfl, (Host.Outcome.next.inj h).symm⟩)
      | reset => exact .inr (.inr ⟨ht, .reset, s1, nofun, rfl, (Host.Outcome.next.inj h).symm⟩)
      | jammed => exact .inr (.inr ⟨ht, .jammed, s1, nofun, rfl, (Host.Outcome.next.inj h).symm⟩)
  · rw [if_neg ht] at h
    exact .inl ⟨ht, (Host.Outcome.next.inj h).symm⟩

/-- The boundary decision changes only the latches of the controller. -/
theorem boundary_frame (s : State) :
    s.boundary.2.regs = s.regs ∧ s.boundary.2.latch = s.latch ∧ s.boundary.2.seq = s.seq ∧ s.boundary.2.t = s.t ∧
    s.boundary.2.mem = s.mem ∧ s.boundary.2.hooks = s.hooks ∧ s.boundary.2.cfg = s.cfg ∧
    s.boundary.2.inputs = s.inputs ∧ s.boundary.2.trace = s.trace ∧ s.boundary.2.dbus = s.dbus := by
  unfold State.boundary
  repeat' split
  all_goals exact ⟨rfl, rfl, rfl, rfl, rfl, rfl, rfl, rfl, rfl, rfl⟩

/-- After tick 1 a step begins with the boundary decision (R94). -/
theorem firstTick_eq {s : State} (h : s.lastBus ≠ none) : s.firstTick = s := by
  unfold State.firstTick
  cases hl : s.lastBus with
  | none => exact absurd hl h
  | some c => rfl

/-- A step that fetches is the meaning of the instruction fetched. -/
theorem step_fetch {s s1 : State} (ht : s.t = 0) (hl : s.lastBus ≠ none) (hb : s.boundary = (.instr, s1)) :
    step s = exec s1.fetchInstr.fetched s1.fetchInstr := by
  unfold step
  rw [if_pos ht, firstTick_eq hl, hb]

/-- A step that starts another sequence performs it. -/
theorem step_sequence {s s1 : State} {q : Seq} (ht : s.t = 0) (hl : s.lastBus ≠ none) (hq : q ≠ .instr)
    (hb : s.boundary = (q, s1)) : step s = .next (s1.runSequence q) := by
  unfold step
  rw [if_pos ht, firstTick_eq hl, hb]
  cases q <;> first | rfl | exact absurd rfl hq

end Sys2Proof.Machine
end

