-- ==== Sys2Proof/Laws/Fetch.lean ====
section
/-!
SUPPORT. What fetching an instruction leaves, and which instruction it is.
-/

namespace Sys2Proof.Machine

theorem operandRows_quiet : ∀ n, QuietRows (operandRows n)
  | 0 => .nil
  | 1 => .cons (fun _ => Quiet.of_regs_latch _ _) .nil
  | _ + 2 => .cons (fun _ => Quiet.of_regs_latch _ _) (.cons (fun _ => Quiet.of_regs_latch _ _) .nil)

theorem fetchRow_quiet (s : State) : Quiet s (fetchRow.act s) := Quiet.of_regs_latch _ _

theorem operandFetches_le (d : Descriptor) : operandFetches d ≤ 2 := by
  unfold operandFetches
  split
  · decide
  · cases d.mode <;> decide

/-- The state in which the opcode has been fetched. -/
theorem fetchRow_spec (s : State) :
    (fetchRow.run s).regs = { s.regs with pc := s.regs.pc + 1 } ∧ (fetchRow.run s).mem = s.mem ∧
    (fetchRow.run s).seq = s.seq ∧ (fetchRow.run s).t = s.t ∧ (fetchRow.run s).hooks = s.hooks ∧
    (fetchRow.run s).cfg = s.cfg ∧ (fetchRow.run s).ctl.inhibit = s.ctl.inhibit ∧
    (s.Plain s.regs.pc → (fetchRow.run s).latch.ir = s.peek s.regs.pc) := by
  refine ⟨?_, ?_, ?_, ?_, ?_, ?_, ?_, fun h => ?_⟩
  case _ => simp [fetchRow, atPc]
  case _ => simp [fetchRow]
  case _ => simp [fetchRow]
  case _ => simp [fetchRow]
  case _ => simp [fetchRow]
  case _ => simp [fetchRow]
  case _ => simp [fetchRow]
  case _ =>
    have hd := readCycle_dl (y := true) (a := s.regs.pc) (s := s) h
    simpa [fetchRow, atPc] using hd

/-- What the operand fetches leave, and the bytes in the latches where no hook covers them. -/
theorem operandRows_spec {n : Nat} (hn : n ≤ 2) (s : State) :
    (runRows (operandRows n) s).regs = { s.regs with pc := s.regs.pc + BitVec.ofNat 16 n } ∧
    (runRows (operandRows n) s).mem = s.mem ∧ (runRows (operandRows n) s).seq = s.seq ∧
    (runRows (operandRows n) s).t = s.t ∧ (runRows (operandRows n) s).hooks = s.hooks ∧
    (runRows (operandRows n) s).cfg = s.cfg ∧ (runRows (operandRows n) s).ctl.inhibit = s.ctl.inhibit ∧
    (runRows (operandRows n) s).latch.ir = s.latch.ir ∧
    (1 ≤ n → s.Plain s.regs.pc → (runRows (operandRows n) s).latch.adl = s.peek s.regs.pc) ∧
    (n = 2 → s.Plain (s.regs.pc + 1) → (runRows (operandRows n) s).latch.adh = s.peek (s.regs.pc + 1)) := by
  have h1 : s.regs.pc + 1#16 + 1#16 = s.regs.pc + 2#16 := by bv_omega
  obtain rfl | rfl | rfl : n = 0 ∨ n = 1 ∨ n = 2 := by omega
  · simp [operandRows]
  · refine ⟨by simp [operandRows, operandLoRow], by simp [operandRows, operandLoRow], by simp [operandRows, operandLoRow],
      by simp [operandRows, operandLoRow], by simp [operandRows, operandLoRow], by simp [operandRows, operandLoRow],
      by simp [operandRows, operandLoRow], by simp [operandRows, operandLoRow], fun _ h => ?_, nofun⟩
    have hd := readCycle_dl (y := false) (a := s.regs.pc) (s := s) h
    simpa [operandRows, operandLoRow, atPc] using hd
  · refine ⟨by simp [operandRows, operandLoRow, operandHiRow, h1], by simp [operandRows, operandLoRow, operandHiRow],
      by simp [operandRows, operandLoRow, operandHiRow], by simp [operandRows, operandLoRow, operandHiRow],
      by simp [operandRows, operandLoRow, operandHiRow], by simp [operandRows, operandLoRow, operandHiRow],
      by simp [operandRows, operandLoRow, operandHiRow], by simp [operandRows, operandLoRow, operandHiRow],
      fun _ h => ?_, fun _ h => ?_⟩
    · have hd := readCycle_dl (y := false) (a := s.regs.pc) (s := s) h
      simpa [operandRows, operandLoRow, operandHiRow, atPc] using hd
    · have hd := fun t hh hm hc => readCycle_plain (t := t) h hh hm hc false
      simp [operandRows, operandLoRow, operandHiRow, atPc]
      exact hd _ (by simp) (by simp) (by simp)

theorem operandRows_pins {n : Nat} (hn : n ≤ 2) (s : State) :
    rowsPins (operandRows n) s = (List.range n).map (fun k => .read (s.regs.pc + BitVec.ofNat 16 k)) := by
  obtain rfl | rfl | rfl : n = 0 ∨ n = 1 ∨ n = 2 := by omega
  · rfl
  · simp [operandRows, operandLoRow, rowsPins, atPc]
  · simp [operandRows, operandLoRow, operandHiRow, rowsPins, atPc, List.range_succ]

/-- Fetching with the memory map of `s`: `opcode` being the byte at PC, PC is past the operand bytes fetched, the latches hold them
where no hook covers them, and the rest is as it was (R35, R172). -/
structure FetchDone (opcode : Byte) (s t : State) : Prop where
  regs : t.regs = { s.regs with pc := s.regs.pc + BitVec.ofNat 16 (1 + operandFetches (descriptor opcode)) }
  mem : t.mem = s.mem
  seq : t.seq = .instr
  index : t.t = s.t
  hooks : t.hooks = s.hooks
  cfg : t.cfg = s.cfg
  inhibit : t.ctl.inhibit = s.ctl.inhibit
  ir : t.latch.ir = opcode
  low : 1 ≤ operandFetches (descriptor opcode) → s.Plain (s.regs.pc + 1) → t.latch.adl = s.peek (s.regs.pc + 1)
  high : operandFetches (descriptor opcode) = 2 → s.Plain (s.regs.pc + 2) → t.latch.adh = s.peek (s.regs.pc + 2)
  bus : s.NoWaits → t.NoWaits ∧ AddsCycles s t
    (.fetch s.regs.pc :: (List.range (operandFetches (descriptor opcode))).map (fun k => .read (s.regs.pc + BitVec.ofNat 16 (k + 1))))

/-- What the fetches do, whatever byte they read as the opcode. -/
theorem fetchInstr_done (s : State) : FetchDone s.fetchInstr.latch.ir s s.fetchInstr := by
  have hrun : s.fetchInstr = runRows (operandRows (operandFetches (descriptor (fetchRow.run { s with seq := .instr }).latch.ir)))
    (fetchRow.run { s with seq := .instr }) := rfl
  obtain ⟨a1, a2, a3, a4, a5, a6, a7, -⟩ := fetchRow_spec { s with seq := .instr }
  have hbus : s.NoWaits → AddsCycles s (fetchRow.run { s with seq := .instr }) [.fetch s.regs.pc] ∧
      (fetchRow.run { s with seq := .instr }).NoWaits := fun hn => by
    obtain ⟨b1, b2⟩ := Row.run_unwaited fetchRow_quiet (s := { s with seq := .instr }) hn
    exact ⟨b1.congr rfl rfl, b2⟩
  have hle := operandFetches_le (descriptor (fetchRow.run { s with seq := .instr }).latch.ir)
  have hir : s.fetchInstr.latch.ir = (fetchRow.run { s with seq := .instr }).latch.ir := by
    rw [hrun]
    exact (operandRows_spec hle _).2.2.2.2.2.2.2.1
  rw [hir, hrun]
  generalize fetchRow.run { s with seq := .instr } = u at *
  obtain ⟨b1, b2, b3, b4, b5, b6, b7, b8, b9, b10⟩ := operandRows_spec hle u
  have hpc : u.regs.pc = s.regs.pc + 1 := by rw [a1]
  have hpc2 : u.regs.pc + 1 = s.regs.pc + 2 := by rw [hpc]; bv_omega
  refine ⟨?_, b2.trans a2, b3.trans a3, b4.trans a4, b5.trans a5, b6.trans a6, b7.trans a7, b8, fun h1 h2 => ?_,
    fun h1 h2 => ?_, fun hn => ?_⟩
  · rw [b1, a1]
    simp only [BitVec.ofNat_add, BitVec.add_assoc]; rfl
  · rw [b9 h1 ((plain_congr a5 _).mpr (hpc ▸ h2)), hpc]
    exact peek_congr a2 a6 _
  · rw [b10 h1 ((plain_congr a5 _).mpr (hpc2 ▸ h2)), hpc2]
    exact peek_congr a2 a6 _
  · obtain ⟨c1, c2⟩ := hbus hn
    obtain ⟨d1, d2⟩ := runRows_unwaited (operandRows_quiet _) c2
    rw [operandRows_pins hle, hpc] at d1
    have := c1.trans d1
    refine ⟨d2, ?_⟩
    simpa [BitVec.ofNat_add, BitVec.add_assoc, BitVec.add_comm 1#16] using this

/-- Where no hook covers PC, the opcode is the byte the array holds there. -/
theorem fetchInstr_run {s : State} (hp : s.Plain s.regs.pc) : FetchDone (s.peek s.regs.pc) s s.fetchInstr := by
  have h := fetchInstr_done s
  have hir : s.fetchInstr.latch.ir = s.peek s.regs.pc := by
    refine Eq.trans ?_ ((fetchRow_spec { s with seq := .instr }).2.2.2.2.2.2.2 hp)
    exact (operandRows_spec (operandFetches_le _) _).2.2.2.2.2.2.2.1
  rwa [hir] at h

/-- The instruction fetched has the opcode fetched. -/
theorem fetched_opcode (s : State) : s.fetched.opcode = s.latch.ir := by
  unfold State.fetched
  dsimp only
  repeat' split
  all_goals exact decodeOp_opcode _ _ _

/-- The decoder on three bytes. -/
theorem decode_three (o b1 b2 : Byte) : ∃ rest, decode [o, b1, b2] = .ok (match (descriptor o).mode.operandBytes with
    | 0 => decodeOp o 0 0
    | 1 => decodeOp o b1 0
    | _ => decodeOp o b1 b2, rest) := by
  unfold decode
  dsimp only
  rcases (descriptor o).mode.operandBytes with _ | _ | n
  · exact ⟨[b1, b2], rfl⟩
  · exact ⟨[b2], rfl⟩
  · exact ⟨[], rfl⟩

/-- Only JSR leaves its last byte to a later cycle, and that one is a byte long operand less (R302). -/
theorem operandFetches_of_ne {d : Descriptor} (h : d.op ≠ .JSR) : operandFetches d = d.mode.operandBytes := if_neg h

theorem operandFetches_jsr : ∀ o : Byte, (descriptor o).op = .JSR →
    (descriptor o).mode.operandBytes = 2 ∧ operandFetches (descriptor o) = 1 := by decide

/-- The instruction fetched is the one the decoder reads from the bytes the array holds at PC, where no hook covers them (R172). -/
theorem fetched_of_decode {s t : State} {i : Instr} (rest : List Byte) (h : FetchDone (s.peek s.regs.pc) s t)
    (hd : decode [s.peek s.regs.pc, s.peek (s.regs.pc + 1), s.peek (s.regs.pc + 2)] = .ok (i, rest))
    (hp : ∀ k, k < i.descriptor.length → s.Plain (s.regs.pc + BitVec.ofNat 16 k)) :
    t.fetched = i ∧ i.opcode = s.peek s.regs.pc := by
  obtain ⟨rest', hd'⟩ := decode_three (s.peek s.regs.pc) (s.peek (s.regs.pc + 1)) (s.peek (s.regs.pc + 2))
  rw [hd'] at hd
  have hi : i = _ := (congrArg Prod.fst (Except.ok.inj hd)).symm
  have ho : i.opcode = s.peek s.regs.pc := by
    rw [hi]
    dsimp only
    split <;> exact decodeOp_opcode _ _ _
  have hlen : i.descriptor.length = 1 + (descriptor (s.peek s.regs.pc)).mode.operandBytes := by
    rw [Instr.descriptor, ho]; rfl
  refine ⟨?_, ho⟩
  rw [State.fetched, h.ir, hi]
  have hpc2 : t.regs.pc = s.regs.pc + BitVec.ofNat 16 (1 + operandFetches (descriptor (s.peek s.regs.pc))) := by rw [h.regs]
  dsimp only
  have hle : (descriptor (s.peek s.regs.pc)).mode.operandBytes ≤ 2 := by cases (descriptor (s.peek s.regs.pc)).mode <;> decide
  rcases hn : (descriptor (s.peek s.regs.pc)).mode.operandBytes with _ | _ | _ | n
  · rfl
  · have hf : operandFetches (descriptor (s.peek s.regs.pc)) = 1 := by
      rw [operandFetches_of_ne, hn]
      intro c
      rw [(operandFetches_jsr _ c).1] at hn
      exact absurd hn (by decide)
    rw [h.low (by omega) (hp 1 (by omega))]
    rfl
  · have hhi : (if (descriptor (s.peek s.regs.pc)).op = .JSR then t.peek t.regs.pc else t.latch.adh) =
        s.peek (s.regs.pc + 2) := by
      split
      · rename_i c
        rw [hpc2, (operandFetches_jsr _ c).2]
        exact peek_congr h.mem h.cfg _
      · rename_i c
        exact h.high ((operandFetches_of_ne c).trans hn) (hp 2 (by omega))
    have hone : 1 ≤ operandFetches (descriptor (s.peek s.regs.pc)) := by
      by_cases c : (descriptor (s.peek s.regs.pc)).op = .JSR
      · exact (operandFetches_jsr _ c).2.ge
      · exact (operandFetches_of_ne c).trans hn ▸ (by decide)
    show decodeOp _ t.latch.adl _ = decodeOp _ (s.peek (s.regs.pc + 1)) (s.peek (s.regs.pc + 2))
    exact congr (congrArg (decodeOp _) (h.low hone (hp 1 (by omega)))) hhi
  · omega

end Sys2Proof.Machine
end

