-- ==== Sys2Proof/Laws/Ticks.lean ====
section
/-!
SUPPORT. The rows of every cycle table read nothing but the registers, the latches and the parameters, and act on nothing but the
registers, the latches, `inhibit` and the jammed state, so that ticks and steps, and ticks with different pins, can be compared.
-/

namespace Sys2Proof.Machine

/-- `u` with the registers, the latches and the parameters of `s`. -/
def State.like (s u : State) : State := { u with regs := s.regs, latch := s.latch, cfg := s.cfg }

theorem State.like_eq {s u : State} (hr : u.regs = s.regs) (hl : u.latch = s.latch) (hc : u.cfg = s.cfg) : s.like u = u := by
  unfold State.like
  rw [← hr, ← hl, ← hc]

/-- An action reads and changes only registers and latches, beside `inhibit` and the jammed state, which it sets always or never. -/
structure LocalAct (act : State → State) : Prop where
  quiet : ∀ s, Quiet s (act s)
  regs : ∀ s u : State, (act (s.like u)).regs = (act s).regs
  latch : ∀ s u : State, (act (s.like u)).latch = (act s).latch
  ctl : (∀ s, (act s).ctl = s.ctl) ∨ ∀ s, (act s).ctl = { s.ctl with inhibit := true }
  seq : (∀ s, (act s).seq = s.seq) ∨ ∀ s, (act s).seq = .jammed

/-- Such a row, whose address, byte and condition read only registers, latches and parameters too. -/
structure LocalRow (r : Row) : Prop where
  act : LocalAct r.act
  addr : ∀ s u : State, r.addr (s.like u) = r.addr s
  value : ∀ v, r.value = some v → ∀ s u : State, v (s.like u) = v s
  happens : ∀ s u : State, r.happens (s.like u) = r.happens s

/-- Every row is local. -/
def LocalRows (rs : List Row) : Prop := ∀ r ∈ rs, LocalRow r

/-- A plan of local actions and rows. -/
def Plan.IsLocal (p : Plan) : Prop := LocalAct p.start ∧ LocalRows p.rows

theorem LocalRows.nil : LocalRows [] := fun _ h => nomatch h

theorem LocalRows.cons {r : Row} {rs : List Row} (hr : LocalRow r) (hrs : LocalRows rs) : LocalRows (r :: rs) := by
  intro r' h
  cases h with
  | head => exact hr
  | tail _ h => exact hrs r' h

theorem LocalRows.append {rs rs' : List Row} (h : LocalRows rs) (h' : LocalRows rs') : LocalRows (rs ++ rs') := by
  intro r hr
  cases List.mem_append.mp hr with
  | inl hr => exact h r hr
  | inr hr => exact h' r hr

theorem LocalAct.id : LocalAct id := ⟨Quiet.refl, fun _ _ => rfl, fun _ _ => rfl, .inl fun _ => rfl, .inl fun _ => rfl⟩

theorem LocalAct.comp {f g : State → State} (hf : LocalAct f) (hg : LocalAct g) : LocalAct (fun s => g (f s)) := by
  have hlike : ∀ s u : State, (f s).like (f (s.like u)) = f (s.like u) := fun s u =>
    State.like_eq (hf.regs s u) (hf.latch s u) (by rw [(hf.quiet _).cfg, (hf.quiet s).cfg]; rfl)
  refine ⟨fun s => (hf.quiet s).trans (hg.quiet _), fun s u => ?_, fun s u => ?_, ?_, ?_⟩
  · rw [← hlike s u]; exact hg.regs _ _
  · rw [← hlike s u]; exact hg.latch _ _
  · rcases hg.ctl with h | h <;> rcases hf.ctl with h' | h' <;> simp only [h, h']
    · exact .inl fun _ => trivial
    · exact .inr fun _ => trivial
    · exact .inr fun _ => trivial
    · exact .inr fun _ => trivial
  · rcases hg.seq with h | h <;> rcases hf.seq with h' | h' <;> simp only [h, h']
    · exact .inl fun _ => trivial
    · exact .inr fun _ => trivial
    · exact .inr fun _ => trivial
    · exact .inr fun _ => trivial

/-- Actions that change only registers and latches. -/
theorem LocalAct.of_regs_latch (f : State → Regs) (g : State → Latches) (hf : ∀ s u : State, f (s.like u) = f s)
    (hg : ∀ s u : State, g (s.like u) = g s) : LocalAct (fun s => { s with regs := f s, latch := g s }) :=
  ⟨fun _ => Quiet.of_regs_latch _ _, hf, hg, .inl fun _ => rfl, .inl fun _ => rfl⟩

/-- As before, `inhibit` set too. -/
theorem LocalAct.of_inhibit (f : State → Regs) (g : State → Latches) (hf : ∀ s u : State, f (s.like u) = f s)
    (hg : ∀ s u : State, g (s.like u) = g s) :
    LocalAct (fun s => { s with regs := f s, latch := g s, ctl := { s.ctl with inhibit := true } }) :=
  ⟨fun _ => Quiet.of_inhibit _ _, hf, hg, .inr fun _ => rfl, .inl fun _ => rfl⟩

theorem LocalRow.rd {f : State → Word} {act : State → State} (ha : ∀ s u : State, f (s.like u) = f s) (h : LocalAct act) :
    LocalRow (rd f act) := ⟨h, ha, nofun, fun _ _ => rfl⟩

theorem LocalRow.wr {f : State → Word} {v : State → Byte} {act : State → State} (ha : ∀ s u : State, f (s.like u) = f s)
    (hv : ∀ s u : State, v (s.like u) = v s) (h : LocalAct act) : LocalRow (wr f v act) :=
  ⟨h, ha, fun _ e => by cases e; exact hv, fun _ _ => rfl⟩

theorem LocalRow.withSync {r : Row} (h : LocalRow r) : LocalRow r.withSync := ⟨h.act, h.addr, h.value, h.happens⟩

theorem LocalRow.onlyIf {r : Row} (h : LocalRow r) {cond : State → Bool} (hc : ∀ s u : State, cond (s.like u) = cond s) :
    LocalRow (r.onlyIf cond) := ⟨h.act, h.addr, h.value, hc⟩

/-! ### Every table is local -/

theorem latchLo_local : LocalAct State.latchLo := .of_regs_latch (fun s => s.regs) _ (fun _ _ => rfl) fun _ _ => rfl
theorem latchHi_local : LocalAct State.latchHi := .of_regs_latch (fun s => s.regs) _ (fun _ _ => rfl) fun _ _ => rfl
theorem incPc_local : LocalAct State.incPc := .of_regs_latch _ (fun s => s.latch) (fun _ _ => rfl) fun _ _ => rfl
theorem decS_local : LocalAct State.decS := .of_regs_latch _ (fun s => s.latch) (fun _ _ => rfl) fun _ _ => rfl
theorem incS_local : LocalAct State.incS := .of_regs_latch _ (fun s => s.latch) (fun _ _ => rfl) fun _ _ => rfl
theorem pullP_local : LocalAct State.pullP := .of_regs_latch _ (fun s => s.latch) (fun _ _ => rfl) fun _ _ => rfl
theorem setI_local : LocalAct State.setI := .of_regs_latch _ (fun s => s.latch) (fun _ _ => rfl) fun _ _ => rfl
theorem takeTarget_local : LocalAct State.takeTarget := .of_regs_latch _ (fun s => s.latch) (fun _ _ => rfl) fun _ _ => rfl
theorem jumpToLatched_local : LocalAct State.jumpToLatched :=
  .of_regs_latch _ (fun s => s.latch) (fun _ _ => rfl) fun _ _ => rfl

theorem formAddress_local (m : Mode) : LocalAct (formAddress m) := by
  cases m <;> first
    | exact LocalAct.id
    | exact .of_regs_latch (fun s => s.regs) _ (fun _ _ => rfl) fun _ _ => rfl

theorem addressRows_local (m : Mode) : LocalRows (addressRows m) := by
  have h : ∀ g : State → Latches, (∀ s u : State, g (s.like u) = g s) → LocalAct (fun s => { s with latch := g s }) :=
    fun g hg => .of_regs_latch (fun s => s.regs) g (fun _ _ => rfl) hg
  cases m <;> simp only [addressRows] <;>
    first
    | exact .nil
    | exact .cons (.rd (fun _ _ => rfl) (h _ fun _ _ => rfl)) .nil
    | exact .cons (.rd (fun _ _ => rfl) (h _ fun _ _ => rfl)) (.cons (.rd (fun _ _ => rfl) (h _ fun _ _ => rfl)) .nil)
    | exact .cons (.rd (fun _ _ => rfl) (h _ fun _ _ => rfl)) (.cons (.rd (fun _ _ => rfl) (h _ fun _ _ => rfl))
        (.cons (.rd (fun _ _ => rfl) (h _ fun _ _ => rfl)) .nil))

theorem applyRead_local (op : ReadOp) : LocalAct (State.applyRead op) :=
  .of_regs_latch _ (fun s => s.latch) (fun _ _ => rfl) fun _ _ => rfl

theorem onRegs_local (op : Regs → Regs) : LocalAct (State.onRegs op) :=
  .of_regs_latch _ (fun s => s.latch) (fun _ _ => rfl) fun _ _ => rfl

theorem readRows_local (m : Mode) (op : ReadOp) : LocalRows (readRows m op) := by
  unfold readRows
  split
  · refine .cons (.rd (fun _ _ => rfl) ?_) (.cons (.onlyIf (.rd (fun _ _ => rfl) (applyRead_local op)) fun _ _ => rfl) .nil)
    have he : (fun s : State => if s.latch.crossed then s else s.applyRead op) =
        fun s => { s with regs := if s.latch.crossed then s.regs else op s.cfg s.latch.dl s.regs, latch := s.latch } := by
      funext s
      split <;> rfl
    rw [he]
    exact .of_regs_latch _ _ (fun _ _ => rfl) fun _ _ => rfl
  · exact .cons (.rd (fun _ _ => rfl) (applyRead_local op)) .nil

theorem uncorrectedRows_local (m : Mode) : LocalRows (uncorrectedRows m) := by
  unfold uncorrectedRows
  split
  · exact .cons (.rd (fun _ _ => rfl) .id) .nil
  · exact .nil

theorem readPlan_local (m : Mode) (op : ReadOp) : (readPlan m op).IsLocal := by
  by_cases h : m = .immediate
  · rw [h]
    exact ⟨applyRead_local op, .nil⟩
  · rw [readPlan_eq h]
    exact ⟨formAddress_local m, .append (addressRows_local m) (readRows_local m op)⟩

theorem writePlan_local (m : Mode) (op : StoreOp) : (writePlan m op).IsLocal :=
  ⟨formAddress_local m, .append (.append (addressRows_local m) (uncorrectedRows_local m))
    (.cons (.wr (fun _ _ => rfl) (fun _ _ => rfl) .id) .nil)⟩

theorem highBytePlan_local (m : Mode) (reg : Regs → Byte) {act : State → State} (h : LocalAct act) :
    (highBytePlan m reg act).IsLocal :=
  ⟨formAddress_local m, .append (.append (addressRows_local m) (uncorrectedRows_local m))
    (.cons (.wr (fun _ _ => rfl) (fun _ _ => rfl) h) .nil)⟩

theorem tasStack_local : LocalAct tasStack := .of_regs_latch _ (fun s => s.latch) (fun _ _ => rfl) fun _ _ => rfl

theorem rmwPlan_local (m : Mode) (op : RmwOp) : (rmwPlan m op).IsLocal :=
  ⟨formAddress_local m, .append (.append (addressRows_local m) (uncorrectedRows_local m))
    (.cons (.rd (fun _ _ => rfl) .id) (.cons (.wr (fun _ _ => rfl) (fun _ _ => rfl)
      (.of_regs_latch _ _ (fun _ _ => rfl) fun _ _ => rfl)) (.cons (.wr (fun _ _ => rfl) (fun _ _ => rfl) .id) .nil)))⟩

theorem internalPlan_local (op : InternalOp) : (internalPlan op).IsLocal :=
  ⟨.id, .cons (.rd (fun _ _ => rfl) (onRegs_local op)) .nil⟩

theorem accumulatorPlan_local (op : RmwOp) : (accumulatorPlan op).IsLocal :=
  ⟨.id, .cons (.rd (fun _ _ => rfl) (.of_regs_latch _ (fun s => s.latch) (fun _ _ => rfl) fun _ _ => rfl)) .nil⟩

theorem branchPlan_local (cond : Status → Bool) : (branchPlan cond).IsLocal := by
  refine ⟨.id, .cons (.onlyIf (.rd (fun _ _ => rfl) ?_) fun _ _ => rfl)
    (.cons (.onlyIf (.rd (fun _ _ => rfl) takeTarget_local) fun _ _ => rfl) .nil)⟩
  have he : (fun s : State => if s.formTarget.latch.crossed then s.formTarget else s.formTarget.takeTarget) =
      fun s => { s with
        regs := if s.formTarget.latch.crossed then s.regs else { s.regs with pc := s.regs.pc + sext s.latch.adl }
        latch := s.formTarget.latch } := by
    funext s
    split <;> rfl
  rw [he]
  exact .of_regs_latch _ _ (fun _ _ => rfl) fun _ _ => rfl

theorem vectorRows_local (vec : Word) : LocalRows (vectorRows vec) :=
  .cons (.rd (fun _ _ => rfl) latchLo_local)
    (.cons (.rd (fun _ _ => rfl) (.of_inhibit _ _ (fun _ _ => rfl) fun _ _ => rfl)) .nil)

theorem entryRows_local (vec : Word) (b : Bool) : LocalRows (entryRows vec b) :=
  .append (.cons (.wr (fun _ _ => rfl) (fun _ _ => rfl) decS_local) (.cons (.wr (fun _ _ => rfl) (fun _ _ => rfl) decS_local)
    (.cons (.wr (fun _ _ => rfl) (fun _ _ => rfl) (decS_local.comp setI_local)) .nil))) (vectorRows_local vec)

theorem interruptRows_local (vec : Word) : LocalRows (interruptRows vec) :=
  .append (.cons (.withSync (.rd (fun _ _ => rfl) .id)) (.cons (.rd (fun _ _ => rfl) .id) .nil)) (entryRows_local vec false)

theorem resetRows_local (cfg : Config) : LocalRows (resetRows cfg) := by
  refine .append (.append ?_ (.cons (.rd (fun _ _ => rfl) .id) (.cons (.rd (fun _ _ => rfl) decS_local)
    (.cons (.rd (fun _ _ => rfl) decS_local) (.cons (.rd (fun _ _ => rfl) (decS_local.comp setI_local)) .nil)))))
    (vectorRows_local _)
  split
  · exact .cons (.rd (fun _ _ => rfl) .id) .nil
  · exact .nil

theorem jamRows_local : LocalRows jamRows := .cons (.rd (fun _ _ => rfl) .id) .nil

theorem sequenceRows_local (q : Seq) (cfg : Config) : LocalRows (sequenceRows q cfg) := by
  cases q with
  | instr => exact .nil
  | irq => exact interruptRows_local _
  | nmi => exact interruptRows_local _
  | reset => exact resetRows_local cfg
  | jammed => exact jamRows_local

theorem latchedJump_local : LocalAct (fun s => s.latchHi.jumpToLatched) := latchHi_local.comp jumpToLatched_local

theorem returnRows_local : LocalRows returnRows :=
  .cons (.rd (fun _ _ => rfl) .id) (.cons (.rd (fun _ _ => rfl) incS_local)
    (.cons (.rd (fun _ _ => rfl) (pullP_local.comp incS_local)) (.cons (.rd (fun _ _ => rfl) (latchLo_local.comp incS_local))
      (.cons (.rd (fun _ _ => rfl) latchedJump_local) .nil))))

theorem jumpPlan_local : jumpPlan.IsLocal := ⟨jumpToLatched_local, .nil⟩

theorem jumpIndirectPlan_local : jumpIndirectPlan.IsLocal :=
  ⟨formAddress_local .indirect, .cons (.rd (fun _ _ => rfl) latchLo_local) (.cons (.rd (fun _ _ => rfl) latchedJump_local) .nil)⟩

theorem jsrPlan_local : jsrPlan.IsLocal :=
  ⟨.id, .cons (.rd (fun _ _ => rfl) .id) (.cons (.wr (fun _ _ => rfl) (fun _ _ => rfl) decS_local)
    (.cons (.wr (fun _ _ => rfl) (fun _ _ => rfl) decS_local) (.cons (.rd (fun _ _ => rfl) latchedJump_local) .nil)))⟩

theorem rtsPlan_local : rtsPlan.IsLocal :=
  ⟨.id, .cons (.rd (fun _ _ => rfl) .id) (.cons (.rd (fun _ _ => rfl) incS_local)
    (.cons (.rd (fun _ _ => rfl) (latchLo_local.comp incS_local)) (.cons (.rd (fun _ _ => rfl) latchedJump_local)
      (.cons (.rd (fun _ _ => rfl) incPc_local) .nil))))⟩

theorem rtiPlan_local : rtiPlan.IsLocal := ⟨.id, returnRows_local⟩

theorem brkPlan_local : brkPlan.IsLocal := ⟨.id, .cons (.rd (fun _ _ => rfl) incPc_local) (entryRows_local _ true)⟩

theorem pushPlan_local (value : Regs → Byte) : (pushPlan value).IsLocal :=
  ⟨.id, .cons (.rd (fun _ _ => rfl) .id) (.cons (.wr (fun _ _ => rfl) (fun _ _ => rfl) decS_local) .nil)⟩

theorem pullPlan_local {take : State → State} (h : LocalAct take) : (pullPlan take).IsLocal :=
  ⟨.id, .cons (.rd (fun _ _ => rfl) .id) (.cons (.rd (fun _ _ => rfl) incS_local) (.cons (.rd (fun _ _ => rfl) h) .nil))⟩

theorem plaPlan_local : plaPlan.IsLocal :=
  pullPlan_local (.of_regs_latch _ (fun s => s.latch) (fun _ _ => rfl) fun _ _ => rfl)

theorem plpPlan_local : plpPlan.IsLocal := pullPlan_local pullP_local

theorem jamPlan_local : jamPlan.IsLocal :=
  ⟨.id, .cons (.rd (fun _ _ => rfl) ⟨fun _ => Quiet.of_jam, fun _ _ => rfl, fun _ _ => rfl, .inl fun _ => rfl,
    .inr fun _ => rfl⟩) .nil⟩

theorem planFor_local (d : Descriptor) : (planFor d).IsLocal := by
  unfold planFor nopPlan shiftPlan jmpPlan
  cases d.op <;> dsimp only <;> repeat' split
  all_goals
    first
    | exact readPlan_local _ _
    | exact writePlan_local _ _
    | exact rmwPlan_local _ _
    | exact internalPlan_local _
    | exact accumulatorPlan_local _
    | exact branchPlan_local _
    | exact highBytePlan_local _ _ .id
    | exact highBytePlan_local _ _ tasStack_local
    | exact pushPlan_local _
    | exact plaPlan_local
    | exact plpPlan_local
    | exact brkPlan_local
    | exact jumpPlan_local
    | exact jumpIndirectPlan_local
    | exact jsrPlan_local
    | exact rtsPlan_local
    | exact rtiPlan_local
    | exact jamPlan_local

theorem operandLoRow_local : LocalRow operandLoRow := .rd (fun _ _ => rfl) (latchLo_local.comp incPc_local)

theorem instrRows_local (opcode : Byte) : LocalRows (instrRows opcode) := by
  obtain ⟨h, hr⟩ := planFor_local (descriptor opcode)
  unfold instrRows
  dsimp only
  split
  · exact hr
  · exact .cons (.rd (fun _ _ => rfl) ((latchLo_local.comp incPc_local).comp h)) hr
  · exact .cons operandLoRow_local (.cons (.rd (fun _ _ => rfl) ((latchHi_local.comp incPc_local).comp h)) hr)

/-- Every row of the running sequence is local. -/
theorem rows_local (s : State) : LocalRows s.rows := by
  unfold State.rows
  split
  · refine .cons (.withSync (.rd (fun _ _ => rfl) ?_)) (instrRows_local _)
    exact .of_regs_latch _ _ (fun _ _ => rfl) fun _ _ => rfl
  all_goals exact sequenceRows_local _ _

end Sys2Proof.Machine
end

