-- ==== Sys2Proof/Laws/Bridge.lean ====
section
/-!
SUPPORT. The meaning of a decoded instruction is the plan that the sequencer selects for its opcode: steps and ticks follow the same
tables.
-/

namespace Sys2Proof.Machine

/-- `n` operand bytes in the latches, as their fetches leave them. -/
def latchOperand (n : Nat) (b1 b2 : Byte) (s : State) : State :=
  match n with
  | 0 => s
  | 1 => operand8 b1 s
  | _ => { s with latch := { s.latch with adl := b1, adh := b2, dl := b2 } }

/-- The meaning of what the decoder gives for opcode `o` is the plan the descriptor of `o` selects. -/
def FollowsPlan (o b1 b2 : Byte) (s : State) : Prop :=
  exec (decodeOp o b1 b2) s = .next ((planFor (descriptor o)).run (latchOperand (operandFetches (descriptor o)) b1 b2 s))

theorem runPlan16_pair (p : Plan) (b1 b2 : Byte) (s : State) :
    runPlan16 p (pair b2 b1) s = .next (p.run (latchOperand 2 b1 b2 s)) := by
  rw [runPlan16, operand16, lo_pair, hi_pair]
  rfl

theorem runPlan8_pair (p : Plan) (b1 b2 : Byte) (s : State) :
    runPlan8 p (lo (pair b2 b1)) s = .next (p.run (latchOperand 1 b1 b2 s)) := by
  rw [runPlan8, lo_pair]
  rfl

theorem followsPlan_row0 (b1 b2 : Byte) (s : State) : ∀ k, 0 ≤ k → k < 16 → FollowsPlan (BitVec.ofNat 8 k) b1 b2 s := by
  intro k h1 h2
  interval_cases k
  · exact Eq.refl (runPlan0 brkPlan s)
  · exact Eq.refl (runPlan8 (readPlan .indirectX opOra) b1 s)
  · exact Eq.refl (runPlan0 jamPlan s)
  · exact Eq.refl (runPlan8 (rmwPlan .indirectX opSlo) b1 s)
  · exact Eq.refl (runPlan8 (readPlan .zeroPage opNop) b1 s)
  · exact Eq.refl (runPlan8 (readPlan .zeroPage opOra) b1 s)
  · exact Eq.refl (runPlan8 (rmwPlan .zeroPage opAsl) b1 s)
  · exact Eq.refl (runPlan8 (rmwPlan .zeroPage opSlo) b1 s)
  · exact Eq.refl (runPlan0 phpPlan s)
  · exact Eq.refl (runPlan8 (readPlan .immediate opOra) b1 s)
  · exact Eq.refl (runPlan0 (accumulatorPlan opAsl) s)
  · exact Eq.refl (runPlan8 (readPlan .immediate opAnc) b1 s)
  · exact runPlan16_pair (readPlan .absolute opNop) b1 b2 s
  · exact runPlan16_pair (readPlan .absolute opOra) b1 b2 s
  · exact runPlan16_pair (rmwPlan .absolute opAsl) b1 b2 s
  · exact runPlan16_pair (rmwPlan .absolute opSlo) b1 b2 s

theorem followsPlan_row1 (b1 b2 : Byte) (s : State) : ∀ k, 16 ≤ k → k < 32 → FollowsPlan (BitVec.ofNat 8 k) b1 b2 s := by
  intro k h1 h2
  interval_cases k
  · exact Eq.refl (runPlan8 (branchPlan condBpl) b1 s)
  · exact Eq.refl (runPlan8 (readPlan .indirectY opOra) b1 s)
  · exact Eq.refl (runPlan0 jamPlan s)
  · exact Eq.refl (runPlan8 (rmwPlan .indirectY opSlo) b1 s)
  · exact Eq.refl (runPlan8 (readPlan .zeroPageX opNop) b1 s)
  · exact Eq.refl (runPlan8 (readPlan .zeroPageX opOra) b1 s)
  · exact Eq.refl (runPlan8 (rmwPlan .zeroPageX opAsl) b1 s)
  · exact Eq.refl (runPlan8 (rmwPlan .zeroPageX opSlo) b1 s)
  · exact Eq.refl (runPlan0 (internalPlan opClc) s)
  · exact runPlan16_pair (readPlan .absoluteY opOra) b1 b2 s
  · exact Eq.refl (runPlan0 (internalPlan opIdle) s)
  · exact runPlan16_pair (rmwPlan .absoluteY opSlo) b1 b2 s
  · exact runPlan16_pair (readPlan .absoluteX opNop) b1 b2 s
  · exact runPlan16_pair (readPlan .absoluteX opOra) b1 b2 s
  · exact runPlan16_pair (rmwPlan .absoluteX opAsl) b1 b2 s
  · exact runPlan16_pair (rmwPlan .absoluteX opSlo) b1 b2 s

theorem followsPlan_row2 (b1 b2 : Byte) (s : State) : ∀ k, 32 ≤ k → k < 48 → FollowsPlan (BitVec.ofNat 8 k) b1 b2 s := by
  intro k h1 h2
  interval_cases k
  · exact runPlan8_pair jsrPlan b1 b2 s
  · exact Eq.refl (runPlan8 (readPlan .indirectX opAnd) b1 s)
  · exact Eq.refl (runPlan0 jamPlan s)
  · exact Eq.refl (runPlan8 (rmwPlan .indirectX opRla) b1 s)
  · exact Eq.refl (runPlan8 (readPlan .zeroPage opBit) b1 s)
  · exact Eq.refl (runPlan8 (readPlan .zeroPage opAnd) b1 s)
  · exact Eq.refl (runPlan8 (rmwPlan .zeroPage opRol) b1 s)
  · exact Eq.refl (runPlan8 (rmwPlan .zeroPage opRla) b1 s)
  · exact Eq.refl (runPlan0 plpPlan s)
  · exact Eq.refl (runPlan8 (readPlan .immediate opAnd) b1 s)
  · exact Eq.refl (runPlan0 (accumulatorPlan opRol) s)
  · exact Eq.refl (runPlan8 (readPlan .immediate opAnc) b1 s)
  · exact runPlan16_pair (readPlan .absolute opBit) b1 b2 s
  · exact runPlan16_pair (readPlan .absolute opAnd) b1 b2 s
  · exact runPlan16_pair (rmwPlan .absolute opRol) b1 b2 s
  · exact runPlan16_pair (rmwPlan .absolute opRla) b1 b2 s

theorem followsPlan_row3 (b1 b2 : Byte) (s : State) : ∀ k, 48 ≤ k → k < 64 → FollowsPlan (BitVec.ofNat 8 k) b1 b2 s := by
  intro k h1 h2
  interval_cases k
  · exact Eq.refl (runPlan8 (branchPlan condBmi) b1 s)
  · exact Eq.refl (runPlan8 (readPlan .indirectY opAnd) b1 s)
  · exact Eq.refl (runPlan0 jamPlan s)
  · exact Eq.refl (runPlan8 (rmwPlan .indirectY opRla) b1 s)
  · exact Eq.refl (runPlan8 (readPlan .zeroPageX opNop) b1 s)
  · exact Eq.refl (runPlan8 (readPlan .zeroPageX opAnd) b1 s)
  · exact Eq.refl (runPlan8 (rmwPlan .zeroPageX opRol) b1 s)
  · exact Eq.refl (runPlan8 (rmwPlan .zeroPageX opRla) b1 s)
  · exact Eq.refl (runPlan0 (internalPlan opSec) s)
  · exact runPlan16_pair (readPlan .absoluteY opAnd) b1 b2 s
  · exact Eq.refl (runPlan0 (internalPlan opIdle) s)
  · exact runPlan16_pair (rmwPlan .absoluteY opRla) b1 b2 s
  · exact runPlan16_pair (readPlan .absoluteX opNop) b1 b2 s
  · exact runPlan16_pair (readPlan .absoluteX opAnd) b1 b2 s
  · exact runPlan16_pair (rmwPlan .absoluteX opRol) b1 b2 s
  · exact runPlan16_pair (rmwPlan .absoluteX opRla) b1 b2 s

theorem followsPlan_row4 (b1 b2 : Byte) (s : State) : ∀ k, 64 ≤ k → k < 80 → FollowsPlan (BitVec.ofNat 8 k) b1 b2 s := by
  intro k h1 h2
  interval_cases k
  · exact Eq.refl (runPlan0 rtiPlan s)
  · exact Eq.refl (runPlan8 (readPlan .indirectX opEor) b1 s)
  · exact Eq.refl (runPlan0 jamPlan s)
  · exact Eq.refl (runPlan8 (rmwPlan .indirectX opSre) b1 s)
  · exact Eq.refl (runPlan8 (readPlan .zeroPage opNop) b1 s)
  · exact Eq.refl (runPlan8 (readPlan .zeroPage opEor) b1 s)
  · exact Eq.refl (runPlan8 (rmwPlan .zeroPage opLsr) b1 s)
  · exact Eq.refl (runPlan8 (rmwPlan .zeroPage opSre) b1 s)
  · exact Eq.refl (runPlan0 phaPlan s)
  · exact Eq.refl (runPlan8 (readPlan .immediate opEor) b1 s)
  · exact Eq.refl (runPlan0 (accumulatorPlan opLsr) s)
  · exact Eq.refl (runPlan8 (readPlan .immediate opAlr) b1 s)
  · exact runPlan16_pair jumpPlan b1 b2 s
  · exact runPlan16_pair (readPlan .absolute opEor) b1 b2 s
  · exact runPlan16_pair (rmwPlan .absolute opLsr) b1 b2 s
  · exact runPlan16_pair (rmwPlan .absolute opSre) b1 b2 s

theorem followsPlan_row5 (b1 b2 : Byte) (s : State) : ∀ k, 80 ≤ k → k < 96 → FollowsPlan (BitVec.ofNat 8 k) b1 b2 s := by
  intro k h1 h2
  interval_cases k
  · exact Eq.refl (runPlan8 (branchPlan condBvc) b1 s)
  · exact Eq.refl (runPlan8 (readPlan .indirectY opEor) b1 s)
  · exact Eq.refl (runPlan0 jamPlan s)
  · exact Eq.refl (runPlan8 (rmwPlan .indirectY opSre) b1 s)
  · exact Eq.refl (runPlan8 (readPlan .zeroPageX opNop) b1 s)
  · exact Eq.refl (runPlan8 (readPlan .zeroPageX opEor) b1 s)
  · exact Eq.refl (runPlan8 (rmwPlan .zeroPageX opLsr) b1 s)
  · exact Eq.refl (runPlan8 (rmwPlan .zeroPageX opSre) b1 s)
  · exact Eq.refl (runPlan0 (internalPlan opCli) s)
  · exact runPlan16_pair (readPlan .absoluteY opEor) b1 b2 s
  · exact Eq.refl (runPlan0 (internalPlan opIdle) s)
  · exact runPlan16_pair (rmwPlan .absoluteY opSre) b1 b2 s
  · exact runPlan16_pair (readPlan .absoluteX opNop) b1 b2 s
  · exact runPlan16_pair (readPlan .absoluteX opEor) b1 b2 s
  · exact runPlan16_pair (rmwPlan .absoluteX opLsr) b1 b2 s
  · exact runPlan16_pair (rmwPlan .absoluteX opSre) b1 b2 s

theorem followsPlan_row6 (b1 b2 : Byte) (s : State) : ∀ k, 96 ≤ k → k < 112 → FollowsPlan (BitVec.ofNat 8 k) b1 b2 s := by
  intro k h1 h2
  interval_cases k
  · exact Eq.refl (runPlan0 rtsPlan s)
  · exact Eq.refl (runPlan8 (readPlan .indirectX opAdc) b1 s)
  · exact Eq.refl (runPlan0 jamPlan s)
  · exact Eq.refl (runPlan8 (rmwPlan .indirectX opRra) b1 s)
  · exact Eq.refl (runPlan8 (readPlan .zeroPage opNop) b1 s)
  · exact Eq.refl (runPlan8 (readPlan .zeroPage opAdc) b1 s)
  · exact Eq.refl (runPlan8 (rmwPlan .zeroPage opRor) b1 s)
  · exact Eq.refl (runPlan8 (rmwPlan .zeroPage opRra) b1 s)
  · exact Eq.refl (runPlan0 plaPlan s)
  · exact Eq.refl (runPlan8 (readPlan .immediate opAdc) b1 s)
  · exact Eq.refl (runPlan0 (accumulatorPlan opRor) s)
  · exact Eq.refl (runPlan8 (readPlan .immediate opArr) b1 s)
  · exact runPlan16_pair jumpIndirectPlan b1 b2 s
  · exact runPlan16_pair (readPlan .absolute opAdc) b1 b2 s
  · exact runPlan16_pair (rmwPlan .absolute opRor) b1 b2 s
  · exact runPlan16_pair (rmwPlan .absolute opRra) b1 b2 s

theorem followsPlan_row7 (b1 b2 : Byte) (s : State) : ∀ k, 112 ≤ k → k < 128 → FollowsPlan (BitVec.ofNat 8 k) b1 b2 s := by
  intro k h1 h2
  interval_cases k
  · exact Eq.refl (runPlan8 (branchPlan condBvs) b1 s)
  · exact Eq.refl (runPlan8 (readPlan .indirectY opAdc) b1 s)
  · exact Eq.refl (runPlan0 jamPlan s)
  · exact Eq.refl (runPlan8 (rmwPlan .indirectY opRra) b1 s)
  · exact Eq.refl (runPlan8 (readPlan .zeroPageX opNop) b1 s)
  · exact Eq.refl (runPlan8 (readPlan .zeroPageX opAdc) b1 s)
  · exact Eq.refl (runPlan8 (rmwPlan .zeroPageX opRor) b1 s)
  · exact Eq.refl (runPlan8 (rmwPlan .zeroPageX opRra) b1 s)
  · exact Eq.refl (runPlan0 (internalPlan opSei) s)
  · exact runPlan16_pair (readPlan .absoluteY opAdc) b1 b2 s
  · exact Eq.refl (runPlan0 (internalPlan opIdle) s)
  · exact runPlan16_pair (rmwPlan .absoluteY opRra) b1 b2 s
  · exact runPlan16_pair (readPlan .absoluteX opNop) b1 b2 s
  · exact runPlan16_pair (readPlan .absoluteX opAdc) b1 b2 s
  · exact runPlan16_pair (rmwPlan .absoluteX opRor) b1 b2 s
  · exact runPlan16_pair (rmwPlan .absoluteX opRra) b1 b2 s

theorem followsPlan_row8 (b1 b2 : Byte) (s : State) : ∀ k, 128 ≤ k → k < 144 → FollowsPlan (BitVec.ofNat 8 k) b1 b2 s := by
  intro k h1 h2
  interval_cases k
  · exact Eq.refl (runPlan8 (readPlan .immediate opNop) b1 s)
  · exact Eq.refl (runPlan8 (writePlan .indirectX opSta) b1 s)
  · exact Eq.refl (runPlan8 (readPlan .immediate opNop) b1 s)
  · exact Eq.refl (runPlan8 (writePlan .indirectX opSax) b1 s)
  · exact Eq.refl (runPlan8 (writePlan .zeroPage opSty) b1 s)
  · exact Eq.refl (runPlan8 (writePlan .zeroPage opSta) b1 s)
  · exact Eq.refl (runPlan8 (writePlan .zeroPage opStx) b1 s)
  · exact Eq.refl (runPlan8 (writePlan .zeroPage opSax) b1 s)
  · exact Eq.refl (runPlan0 (internalPlan opDey) s)
  · exact Eq.refl (runPlan8 (readPlan .immediate opNop) b1 s)
  · exact Eq.refl (runPlan0 (internalPlan opTxa) s)
  · exact Eq.refl (runPlan8 (readPlan .immediate opAne) b1 s)
  · exact runPlan16_pair (writePlan .absolute opSty) b1 b2 s
  · exact runPlan16_pair (writePlan .absolute opSta) b1 b2 s
  · exact runPlan16_pair (writePlan .absolute opStx) b1 b2 s
  · exact runPlan16_pair (writePlan .absolute opSax) b1 b2 s

theorem followsPlan_row9 (b1 b2 : Byte) (s : State) : ∀ k, 144 ≤ k → k < 160 → FollowsPlan (BitVec.ofNat 8 k) b1 b2 s := by
  intro k h1 h2
  interval_cases k
  · exact Eq.refl (runPlan8 (branchPlan condBcc) b1 s)
  · exact Eq.refl (runPlan8 (writePlan .indirectY opSta) b1 s)
  · exact Eq.refl (runPlan0 jamPlan s)
  · exact Eq.refl (runPlan8 (highBytePlan .indirectY opSha id) b1 s)
  · exact Eq.refl (runPlan8 (writePlan .zeroPageX opSty) b1 s)
  · exact Eq.refl (runPlan8 (writePlan .zeroPageX opSta) b1 s)
  · exact Eq.refl (runPlan8 (writePlan .zeroPageY opStx) b1 s)
  · exact Eq.refl (runPlan8 (writePlan .zeroPageY opSax) b1 s)
  · exact Eq.refl (runPlan0 (internalPlan opTya) s)
  · exact runPlan16_pair (writePlan .absoluteY opSta) b1 b2 s
  · exact Eq.refl (runPlan0 (internalPlan opTxs) s)
  · exact runPlan16_pair (highBytePlan .absoluteY opTas tasStack) b1 b2 s
  · exact runPlan16_pair (highBytePlan .absoluteX opShy id) b1 b2 s
  · exact runPlan16_pair (writePlan .absoluteX opSta) b1 b2 s
  · exact runPlan16_pair (highBytePlan .absoluteY opShx id) b1 b2 s
  · exact runPlan16_pair (highBytePlan .absoluteY opSha id) b1 b2 s

theorem followsPlan_rowA (b1 b2 : Byte) (s : State) : ∀ k, 160 ≤ k → k < 176 → FollowsPlan (BitVec.ofNat 8 k) b1 b2 s := by
  intro k h1 h2
  interval_cases k
  · exact Eq.refl (runPlan8 (readPlan .immediate opLdy) b1 s)
  · exact Eq.refl (runPlan8 (readPlan .indirectX opLda) b1 s)
  · exact Eq.refl (runPlan8 (readPlan .immediate opLdx) b1 s)
  · exact Eq.refl (runPlan8 (readPlan .indirectX opLax) b1 s)
  · exact Eq.refl (runPlan8 (readPlan .zeroPage opLdy) b1 s)
  · exact Eq.refl (runPlan8 (readPlan .zeroPage opLda) b1 s)
  · exact Eq.refl (runPlan8 (readPlan .zeroPage opLdx) b1 s)
  · exact Eq.refl (runPlan8 (readPlan .zeroPage opLax) b1 s)
  · exact Eq.refl (runPlan0 (internalPlan opTay) s)
  · exact Eq.refl (runPlan8 (readPlan .immediate opLda) b1 s)
  · exact Eq.refl (runPlan0 (internalPlan opTax) s)
  · exact Eq.refl (runPlan8 (readPlan .immediate opLxa) b1 s)
  · exact runPlan16_pair (readPlan .absolute opLdy) b1 b2 s
  · exact runPlan16_pair (readPlan .absolute opLda) b1 b2 s
  · exact runPlan16_pair (readPlan .absolute opLdx) b1 b2 s
  · exact runPlan16_pair (readPlan .absolute opLax) b1 b2 s

theorem followsPlan_rowB (b1 b2 : Byte) (s : State) : ∀ k, 176 ≤ k → k < 192 → FollowsPlan (BitVec.ofNat 8 k) b1 b2 s := by
  intro k h1 h2
  interval_cases k
  · exact Eq.refl (runPlan8 (branchPlan condBcs) b1 s)
  · exact Eq.refl (runPlan8 (readPlan .indirectY opLda) b1 s)
  · exact Eq.refl (runPlan0 jamPlan s)
  · exact Eq.refl (runPlan8 (readPlan .indirectY opLax) b1 s)
  · exact Eq.refl (runPlan8 (readPlan .zeroPageX opLdy) b1 s)
  · exact Eq.refl (runPlan8 (readPlan .zeroPageX opLda) b1 s)
  · exact Eq.refl (runPlan8 (readPlan .zeroPageY opLdx) b1 s)
  · exact Eq.refl (runPlan8 (readPlan .zeroPageY opLax) b1 s)
  · exact Eq.refl (runPlan0 (internalPlan opClv) s)
  · exact runPlan16_pair (readPlan .absoluteY opLda) b1 b2 s
  · exact Eq.refl (runPlan0 (internalPlan opTsx) s)
  · exact runPlan16_pair (readPlan .absoluteY opLas) b1 b2 s
  · exact runPlan16_pair (readPlan .absoluteX opLdy) b1 b2 s
  · exact runPlan16_pair (readPlan .absoluteX opLda) b1 b2 s
  · exact runPlan16_pair (readPlan .absoluteY opLdx) b1 b2 s
  · exact runPlan16_pair (readPlan .absoluteY opLax) b1 b2 s

theorem followsPlan_rowC (b1 b2 : Byte) (s : State) : ∀ k, 192 ≤ k → k < 208 → FollowsPlan (BitVec.ofNat 8 k) b1 b2 s := by
  intro k h1 h2
  interval_cases k
  · exact Eq.refl (runPlan8 (readPlan .immediate opCpy) b1 s)
  · exact Eq.refl (runPlan8 (readPlan .indirectX opCmp) b1 s)
  · exact Eq.refl (runPlan8 (readPlan .immediate opNop) b1 s)
  · exact Eq.refl (runPlan8 (rmwPlan .indirectX opDcp) b1 s)
  · exact Eq.refl (runPlan8 (readPlan .zeroPage opCpy) b1 s)
  · exact Eq.refl (runPlan8 (readPlan .zeroPage opCmp) b1 s)
  · exact Eq.refl (runPlan8 (rmwPlan .zeroPage opDec) b1 s)
  · exact Eq.refl (runPlan8 (rmwPlan .zeroPage opDcp) b1 s)
  · exact Eq.refl (runPlan0 (internalPlan opIny) s)
  · exact Eq.refl (runPlan8 (readPlan .immediate opCmp) b1 s)
  · exact Eq.refl (runPlan0 (internalPlan opDex) s)
  · exact Eq.refl (runPlan8 (readPlan .immediate opSbx) b1 s)
  · exact runPlan16_pair (readPlan .absolute opCpy) b1 b2 s
  · exact runPlan16_pair (readPlan .absolute opCmp) b1 b2 s
  · exact runPlan16_pair (rmwPlan .absolute opDec) b1 b2 s
  · exact runPlan16_pair (rmwPlan .absolute opDcp) b1 b2 s

theorem followsPlan_rowD (b1 b2 : Byte) (s : State) : ∀ k, 208 ≤ k → k < 224 → FollowsPlan (BitVec.ofNat 8 k) b1 b2 s := by
  intro k h1 h2
  interval_cases k
  · exact Eq.refl (runPlan8 (branchPlan condBne) b1 s)
  · exact Eq.refl (runPlan8 (readPlan .indirectY opCmp) b1 s)
  · exact Eq.refl (runPlan0 jamPlan s)
  · exact Eq.refl (runPlan8 (rmwPlan .indirectY opDcp) b1 s)
  · exact Eq.refl (runPlan8 (readPlan .zeroPageX opNop) b1 s)
  · exact Eq.refl (runPlan8 (readPlan .zeroPageX opCmp) b1 s)
  · exact Eq.refl (runPlan8 (rmwPlan .zeroPageX opDec) b1 s)
  · exact Eq.refl (runPlan8 (rmwPlan .zeroPageX opDcp) b1 s)
  · exact Eq.refl (runPlan0 (internalPlan opCld) s)
  · exact runPlan16_pair (readPlan .absoluteY opCmp) b1 b2 s
  · exact Eq.refl (runPlan0 (internalPlan opIdle) s)
  · exact runPlan16_pair (rmwPlan .absoluteY opDcp) b1 b2 s
  · exact runPlan16_pair (readPlan .absoluteX opNop) b1 b2 s
  · exact runPlan16_pair (readPlan .absoluteX opCmp) b1 b2 s
  · exact runPlan16_pair (rmwPlan .absoluteX opDec) b1 b2 s
  · exact runPlan16_pair (rmwPlan .absoluteX opDcp) b1 b2 s

theorem followsPlan_rowE (b1 b2 : Byte) (s : State) : ∀ k, 224 ≤ k → k < 240 → FollowsPlan (BitVec.ofNat 8 k) b1 b2 s := by
  intro k h1 h2
  interval_cases k
  · exact Eq.refl (runPlan8 (readPlan .immediate opCpx) b1 s)
  · exact Eq.refl (runPlan8 (readPlan .indirectX opSbc) b1 s)
  · exact Eq.refl (runPlan8 (readPlan .immediate opNop) b1 s)
  · exact Eq.refl (runPlan8 (rmwPlan .indirectX opIsc) b1 s)
  · exact Eq.refl (runPlan8 (readPlan .zeroPage opCpx) b1 s)
  · exact Eq.refl (runPlan8 (readPlan .zeroPage opSbc) b1 s)
  · exact Eq.refl (runPlan8 (rmwPlan .zeroPage opInc) b1 s)
  · exact Eq.refl (runPlan8 (rmwPlan .zeroPage opIsc) b1 s)
  · exact Eq.refl (runPlan0 (internalPlan opInx) s)
  · exact Eq.refl (runPlan8 (readPlan .immediate opSbc) b1 s)
  · exact Eq.refl (runPlan0 (internalPlan opIdle) s)
  · exact Eq.refl (runPlan8 (readPlan .immediate opUsbc) b1 s)
  · exact runPlan16_pair (readPlan .absolute opCpx) b1 b2 s
  · exact runPlan16_pair (readPlan .absolute opSbc) b1 b2 s
  · exact runPlan16_pair (rmwPlan .absolute opInc) b1 b2 s
  · exact runPlan16_pair (rmwPlan .absolute opIsc) b1 b2 s

theorem followsPlan_rowF (b1 b2 : Byte) (s : State) : ∀ k, 240 ≤ k → k < 256 → FollowsPlan (BitVec.ofNat 8 k) b1 b2 s := by
  intro k h1 h2
  interval_cases k
  · exact Eq.refl (runPlan8 (branchPlan condBeq) b1 s)
  · exact Eq.refl (runPlan8 (readPlan .indirectY opSbc) b1 s)
  · exact Eq.refl (runPlan0 jamPlan s)
  · exact Eq.refl (runPlan8 (rmwPlan .indirectY opIsc) b1 s)
  · exact Eq.refl (runPlan8 (readPlan .zeroPageX opNop) b1 s)
  · exact Eq.refl (runPlan8 (readPlan .zeroPageX opSbc) b1 s)
  · exact Eq.refl (runPlan8 (rmwPlan .zeroPageX opInc) b1 s)
  · exact Eq.refl (runPlan8 (rmwPlan .zeroPageX opIsc) b1 s)
  · exact Eq.refl (runPlan0 (internalPlan opSed) s)
  · exact runPlan16_pair (readPlan .absoluteY opSbc) b1 b2 s
  · exact Eq.refl (runPlan0 (internalPlan opIdle) s)
  · exact runPlan16_pair (rmwPlan .absoluteY opIsc) b1 b2 s
  · exact runPlan16_pair (readPlan .absoluteX opNop) b1 b2 s
  · exact runPlan16_pair (readPlan .absoluteX opSbc) b1 b2 s
  · exact runPlan16_pair (rmwPlan .absoluteX opInc) b1 b2 s
  · exact runPlan16_pair (rmwPlan .absoluteX opIsc) b1 b2 s

theorem followsPlan (o b1 b2 : Byte) (s : State) : FollowsPlan o b1 b2 s := by
  refine forall_byte (P := fun o => FollowsPlan o b1 b2 s) (fun k hk => ?_) o
  by_cases h0 : k < 16
  · exact followsPlan_row0 b1 b2 s k (by omega) h0
  by_cases h1 : k < 32
  · exact followsPlan_row1 b1 b2 s k (by omega) h1
  by_cases h2 : k < 48
  · exact followsPlan_row2 b1 b2 s k (by omega) h2
  by_cases h3 : k < 64
  · exact followsPlan_row3 b1 b2 s k (by omega) h3
  by_cases h4 : k < 80
  · exact followsPlan_row4 b1 b2 s k (by omega) h4
  by_cases h5 : k < 96
  · exact followsPlan_row5 b1 b2 s k (by omega) h5
  by_cases h6 : k < 112
  · exact followsPlan_row6 b1 b2 s k (by omega) h6
  by_cases h7 : k < 128
  · exact followsPlan_row7 b1 b2 s k (by omega) h7
  by_cases h8 : k < 144
  · exact followsPlan_row8 b1 b2 s k (by omega) h8
  by_cases h9 : k < 160
  · exact followsPlan_row9 b1 b2 s k (by omega) h9
  by_cases h10 : k < 176
  · exact followsPlan_rowA b1 b2 s k (by omega) h10
  by_cases h11 : k < 192
  · exact followsPlan_rowB b1 b2 s k (by omega) h11
  by_cases h12 : k < 208
  · exact followsPlan_rowC b1 b2 s k (by omega) h12
  by_cases h13 : k < 224
  · exact followsPlan_rowD b1 b2 s k (by omega) h13
  by_cases h14 : k < 240
  · exact followsPlan_rowE b1 b2 s k (by omega) h14
  · exact followsPlan_rowF b1 b2 s k (by omega) hk

end Sys2Proof.Machine
end

