-- ==== Sys2Proof/Laws/PerInstr.lean ====
section
/-!
SUPPORT. One lemma per constructor of Instr: its own bytes are as many as its descriptor says and decode to it.
-/

namespace Sys2Proof.Laws.OwnBytes

/-- The bytes `encode` gives are a complete instruction for the decoder, which reads the instruction back from them. -/
def Statement (i : Instr) : Prop :=
  (encode i).length = i.descriptor.length ∧ decodeOp i.opcode ((encode i).getD 1 0) ((encode i).getD 2 0) = i

theorem ofBytes0 {i : Instr} {o : Byte} (he : encode i = [o]) (hl : (Sys2Proof.descriptor o).length = 1)
    (hd : decodeOp o 0 0 = i) : Statement i := by
  simp only [Statement, Instr.descriptor, Instr.opcode, he, List.headD_cons, hl]
  exact ⟨rfl, hd⟩

theorem ofBytes1 {i : Instr} {o b1 : Byte} (he : encode i = [o, b1]) (hl : (Sys2Proof.descriptor o).length = 2)
    (hd : decodeOp o b1 0 = i) : Statement i := by
  simp only [Statement, Instr.descriptor, Instr.opcode, he, List.headD_cons, hl]
  exact ⟨rfl, hd⟩

theorem ofBytes2 {i : Instr} {o b1 b2 : Byte} (he : encode i = [o, b1, b2]) (hl : (Sys2Proof.descriptor o).length = 3)
    (hd : decodeOp o b1 b2 = i) : Statement i := by
  simp only [Statement, Instr.descriptor, Instr.opcode, he, List.headD_cons, hl]
  exact ⟨rfl, hd⟩

theorem brk : Statement .brk := ofBytes0 (o := 0x00) rfl rfl rfl
theorem oraIndX (b : Byte) : Statement (.oraIndX b) := ofBytes1 (o := 0x01) rfl rfl rfl
theorem jam02 : Statement .jam02 := ofBytes0 (o := 0x02) rfl rfl rfl
theorem sloIndX (b : Byte) : Statement (.sloIndX b) := ofBytes1 (o := 0x03) rfl rfl rfl
theorem nopZp04 (b : Byte) : Statement (.nopZp04 b) := ofBytes1 (o := 0x04) rfl rfl rfl
theorem oraZp (b : Byte) : Statement (.oraZp b) := ofBytes1 (o := 0x05) rfl rfl rfl
theorem aslZp (b : Byte) : Statement (.aslZp b) := ofBytes1 (o := 0x06) rfl rfl rfl
theorem sloZp (b : Byte) : Statement (.sloZp b) := ofBytes1 (o := 0x07) rfl rfl rfl
theorem php : Statement .php := ofBytes0 (o := 0x08) rfl rfl rfl
theorem oraImm (b : Byte) : Statement (.oraImm b) := ofBytes1 (o := 0x09) rfl rfl rfl
theorem aslAcc : Statement .aslAcc := ofBytes0 (o := 0x0A) rfl rfl rfl
theorem ancImm0B (b : Byte) : Statement (.ancImm0B b) := ofBytes1 (o := 0x0B) rfl rfl rfl
theorem nopAbs (w : Word) : Statement (.nopAbs w) := ofBytes2 (o := 0x0C) rfl rfl (congrArg Instr.nopAbs (pair_hi_lo w))
theorem oraAbs (w : Word) : Statement (.oraAbs w) := ofBytes2 (o := 0x0D) rfl rfl (congrArg Instr.oraAbs (pair_hi_lo w))
theorem aslAbs (w : Word) : Statement (.aslAbs w) := ofBytes2 (o := 0x0E) rfl rfl (congrArg Instr.aslAbs (pair_hi_lo w))
theorem sloAbs (w : Word) : Statement (.sloAbs w) := ofBytes2 (o := 0x0F) rfl rfl (congrArg Instr.sloAbs (pair_hi_lo w))
theorem bpl (b : Byte) : Statement (.bpl b) := ofBytes1 (o := 0x10) rfl rfl rfl
theorem oraIndY (b : Byte) : Statement (.oraIndY b) := ofBytes1 (o := 0x11) rfl rfl rfl
theorem jam12 : Statement .jam12 := ofBytes0 (o := 0x12) rfl rfl rfl
theorem sloIndY (b : Byte) : Statement (.sloIndY b) := ofBytes1 (o := 0x13) rfl rfl rfl
theorem nopZpX14 (b : Byte) : Statement (.nopZpX14 b) := ofBytes1 (o := 0x14) rfl rfl rfl
theorem oraZpX (b : Byte) : Statement (.oraZpX b) := ofBytes1 (o := 0x15) rfl rfl rfl
theorem aslZpX (b : Byte) : Statement (.aslZpX b) := ofBytes1 (o := 0x16) rfl rfl rfl
theorem sloZpX (b : Byte) : Statement (.sloZpX b) := ofBytes1 (o := 0x17) rfl rfl rfl
theorem clc : Statement .clc := ofBytes0 (o := 0x18) rfl rfl rfl
theorem oraAbsY (w : Word) : Statement (.oraAbsY w) := ofBytes2 (o := 0x19) rfl rfl (congrArg Instr.oraAbsY (pair_hi_lo w))
theorem nop1A : Statement .nop1A := ofBytes0 (o := 0x1A) rfl rfl rfl
theorem sloAbsY (w : Word) : Statement (.sloAbsY w) := ofBytes2 (o := 0x1B) rfl rfl (congrArg Instr.sloAbsY (pair_hi_lo w))
theorem nopAbsX1C (w : Word) : Statement (.nopAbsX1C w) := ofBytes2 (o := 0x1C) rfl rfl (congrArg Instr.nopAbsX1C (pair_hi_lo w))
theorem oraAbsX (w : Word) : Statement (.oraAbsX w) := ofBytes2 (o := 0x1D) rfl rfl (congrArg Instr.oraAbsX (pair_hi_lo w))
theorem aslAbsX (w : Word) : Statement (.aslAbsX w) := ofBytes2 (o := 0x1E) rfl rfl (congrArg Instr.aslAbsX (pair_hi_lo w))
theorem sloAbsX (w : Word) : Statement (.sloAbsX w) := ofBytes2 (o := 0x1F) rfl rfl (congrArg Instr.sloAbsX (pair_hi_lo w))
theorem jsr (w : Word) : Statement (.jsr w) := ofBytes2 (o := 0x20) rfl rfl (congrArg Instr.jsr (pair_hi_lo w))
theorem andIndX (b : Byte) : Statement (.andIndX b) := ofBytes1 (o := 0x21) rfl rfl rfl
theorem jam22 : Statement .jam22 := ofBytes0 (o := 0x22) rfl rfl rfl
theorem rlaIndX (b : Byte) : Statement (.rlaIndX b) := ofBytes1 (o := 0x23) rfl rfl rfl
theorem bitZp (b : Byte) : Statement (.bitZp b) := ofBytes1 (o := 0x24) rfl rfl rfl
theorem andZp (b : Byte) : Statement (.andZp b) := ofBytes1 (o := 0x25) rfl rfl rfl
theorem rolZp (b : Byte) : Statement (.rolZp b) := ofBytes1 (o := 0x26) rfl rfl rfl
theorem rlaZp (b : Byte) : Statement (.rlaZp b) := ofBytes1 (o := 0x27) rfl rfl rfl
theorem plp : Statement .plp := ofBytes0 (o := 0x28) rfl rfl rfl
theorem andImm (b : Byte) : Statement (.andImm b) := ofBytes1 (o := 0x29) rfl rfl rfl
theorem rolAcc : Statement .rolAcc := ofBytes0 (o := 0x2A) rfl rfl rfl
theorem ancImm2B (b : Byte) : Statement (.ancImm2B b) := ofBytes1 (o := 0x2B) rfl rfl rfl
theorem bitAbs (w : Word) : Statement (.bitAbs w) := ofBytes2 (o := 0x2C) rfl rfl (congrArg Instr.bitAbs (pair_hi_lo w))
theorem andAbs (w : Word) : Statement (.andAbs w) := ofBytes2 (o := 0x2D) rfl rfl (congrArg Instr.andAbs (pair_hi_lo w))
theorem rolAbs (w : Word) : Statement (.rolAbs w) := ofBytes2 (o := 0x2E) rfl rfl (congrArg Instr.rolAbs (pair_hi_lo w))
theorem rlaAbs (w : Word) : Statement (.rlaAbs w) := ofBytes2 (o := 0x2F) rfl rfl (congrArg Instr.rlaAbs (pair_hi_lo w))
theorem bmi (b : Byte) : Statement (.bmi b) := ofBytes1 (o := 0x30) rfl rfl rfl
theorem andIndY (b : Byte) : Statement (.andIndY b) := ofBytes1 (o := 0x31) rfl rfl rfl
theorem jam32 : Statement .jam32 := ofBytes0 (o := 0x32) rfl rfl rfl
theorem rlaIndY (b : Byte) : Statement (.rlaIndY b) := ofBytes1 (o := 0x33) rfl rfl rfl
theorem nopZpX34 (b : Byte) : Statement (.nopZpX34 b) := ofBytes1 (o := 0x34) rfl rfl rfl
theorem andZpX (b : Byte) : Statement (.andZpX b) := ofBytes1 (o := 0x35) rfl rfl rfl
theorem rolZpX (b : Byte) : Statement (.rolZpX b) := ofBytes1 (o := 0x36) rfl rfl rfl
theorem rlaZpX (b : Byte) : Statement (.rlaZpX b) := ofBytes1 (o := 0x37) rfl rfl rfl
theorem sec : Statement .sec := ofBytes0 (o := 0x38) rfl rfl rfl
theorem andAbsY (w : Word) : Statement (.andAbsY w) := ofBytes2 (o := 0x39) rfl rfl (congrArg Instr.andAbsY (pair_hi_lo w))
theorem nop3A : Statement .nop3A := ofBytes0 (o := 0x3A) rfl rfl rfl
theorem rlaAbsY (w : Word) : Statement (.rlaAbsY w) := ofBytes2 (o := 0x3B) rfl rfl (congrArg Instr.rlaAbsY (pair_hi_lo w))
theorem nopAbsX3C (w : Word) : Statement (.nopAbsX3C w) := ofBytes2 (o := 0x3C) rfl rfl (congrArg Instr.nopAbsX3C (pair_hi_lo w))
theorem andAbsX (w : Word) : Statement (.andAbsX w) := ofBytes2 (o := 0x3D) rfl rfl (congrArg Instr.andAbsX (pair_hi_lo w))
theorem rolAbsX (w : Word) : Statement (.rolAbsX w) := ofBytes2 (o := 0x3E) rfl rfl (congrArg Instr.rolAbsX (pair_hi_lo w))
theorem rlaAbsX (w : Word) : Statement (.rlaAbsX w) := ofBytes2 (o := 0x3F) rfl rfl (congrArg Instr.rlaAbsX (pair_hi_lo w))
theorem rti : Statement .rti := ofBytes0 (o := 0x40) rfl rfl rfl
theorem eorIndX (b : Byte) : Statement (.eorIndX b) := ofBytes1 (o := 0x41) rfl rfl rfl
theorem jam42 : Statement .jam42 := ofBytes0 (o := 0x42) rfl rfl rfl
theorem sreIndX (b : Byte) : Statement (.sreIndX b) := ofBytes1 (o := 0x43) rfl rfl rfl
theorem nopZp44 (b : Byte) : Statement (.nopZp44 b) := ofBytes1 (o := 0x44) rfl rfl rfl
theorem eorZp (b : Byte) : Statement (.eorZp b) := ofBytes1 (o := 0x45) rfl rfl rfl
theorem lsrZp (b : Byte) : Statement (.lsrZp b) := ofBytes1 (o := 0x46) rfl rfl rfl
theorem sreZp (b : Byte) : Statement (.sreZp b) := ofBytes1 (o := 0x47) rfl rfl rfl
theorem pha : Statement .pha := ofBytes0 (o := 0x48) rfl rfl rfl
theorem eorImm (b : Byte) : Statement (.eorImm b) := ofBytes1 (o := 0x49) rfl rfl rfl
theorem lsrAcc : Statement .lsrAcc := ofBytes0 (o := 0x4A) rfl rfl rfl
theorem alrImm (b : Byte) : Statement (.alrImm b) := ofBytes1 (o := 0x4B) rfl rfl rfl
theorem jmpAbs (w : Word) : Statement (.jmpAbs w) := ofBytes2 (o := 0x4C) rfl rfl (congrArg Instr.jmpAbs (pair_hi_lo w))
theorem eorAbs (w : Word) : Statement (.eorAbs w) := ofBytes2 (o := 0x4D) rfl rfl (congrArg Instr.eorAbs (pair_hi_lo w))
theorem lsrAbs (w : Word) : Statement (.lsrAbs w) := ofBytes2 (o := 0x4E) rfl rfl (congrArg Instr.lsrAbs (pair_hi_lo w))
theorem sreAbs (w : Word) : Statement (.sreAbs w) := ofBytes2 (o := 0x4F) rfl rfl (congrArg Instr.sreAbs (pair_hi_lo w))
theorem bvc (b : Byte) : Statement (.bvc b) := ofBytes1 (o := 0x50) rfl rfl rfl
theorem eorIndY (b : Byte) : Statement (.eorIndY b) := ofBytes1 (o := 0x51) rfl rfl rfl
theorem jam52 : Statement .jam52 := ofBytes0 (o := 0x52) rfl rfl rfl
theorem sreIndY (b : Byte) : Statement (.sreIndY b) := ofBytes1 (o := 0x53) rfl rfl rfl
theorem nopZpX54 (b : Byte) : Statement (.nopZpX54 b) := ofBytes1 (o := 0x54) rfl rfl rfl
theorem eorZpX (b : Byte) : Statement (.eorZpX b) := ofBytes1 (o := 0x55) rfl rfl rfl
theorem lsrZpX (b : Byte) : Statement (.lsrZpX b) := ofBytes1 (o := 0x56) rfl rfl rfl
theorem sreZpX (b : Byte) : Statement (.sreZpX b) := ofBytes1 (o := 0x57) rfl rfl rfl
theorem cli : Statement .cli := ofBytes0 (o := 0x58) rfl rfl rfl
theorem eorAbsY (w : Word) : Statement (.eorAbsY w) := ofBytes2 (o := 0x59) rfl rfl (congrArg Instr.eorAbsY (pair_hi_lo w))
theorem nop5A : Statement .nop5A := ofBytes0 (o := 0x5A) rfl rfl rfl
theorem sreAbsY (w : Word) : Statement (.sreAbsY w) := ofBytes2 (o := 0x5B) rfl rfl (congrArg Instr.sreAbsY (pair_hi_lo w))
theorem nopAbsX5C (w : Word) : Statement (.nopAbsX5C w) := ofBytes2 (o := 0x5C) rfl rfl (congrArg Instr.nopAbsX5C (pair_hi_lo w))
theorem eorAbsX (w : Word) : Statement (.eorAbsX w) := ofBytes2 (o := 0x5D) rfl rfl (congrArg Instr.eorAbsX (pair_hi_lo w))
theorem lsrAbsX (w : Word) : Statement (.lsrAbsX w) := ofBytes2 (o := 0x5E) rfl rfl (congrArg Instr.lsrAbsX (pair_hi_lo w))
theorem sreAbsX (w : Word) : Statement (.sreAbsX w) := ofBytes2 (o := 0x5F) rfl rfl (congrArg Instr.sreAbsX (pair_hi_lo w))
theorem rts : Statement .rts := ofBytes0 (o := 0x60) rfl rfl rfl
theorem adcIndX (b : Byte) : Statement (.adcIndX b) := ofBytes1 (o := 0x61) rfl rfl rfl
theorem jam62 : Statement .jam62 := ofBytes0 (o := 0x62) rfl rfl rfl
theorem rraIndX (b : Byte) : Statement (.rraIndX b) := ofBytes1 (o := 0x63) rfl rfl rfl
theorem nopZp64 (b : Byte) : Statement (.nopZp64 b) := ofBytes1 (o := 0x64) rfl rfl rfl
theorem adcZp (b : Byte) : Statement (.adcZp b) := ofBytes1 (o := 0x65) rfl rfl rfl
theorem rorZp (b : Byte) : Statement (.rorZp b) := ofBytes1 (o := 0x66) rfl rfl rfl
theorem rraZp (b : Byte) : Statement (.rraZp b) := ofBytes1 (o := 0x67) rfl rfl rfl
theorem pla : Statement .pla := ofBytes0 (o := 0x68) rfl rfl rfl
theorem adcImm (b : Byte) : Statement (.adcImm b) := ofBytes1 (o := 0x69) rfl rfl rfl
theorem rorAcc : Statement .rorAcc := ofBytes0 (o := 0x6A) rfl rfl rfl
theorem arrImm (b : Byte) : Statement (.arrImm b) := ofBytes1 (o := 0x6B) rfl rfl rfl
theorem jmpInd (w : Word) : Statement (.jmpInd w) := ofBytes2 (o := 0x6C) rfl rfl (congrArg Instr.jmpInd (pair_hi_lo w))
theorem adcAbs (w : Word) : Statement (.adcAbs w) := ofBytes2 (o := 0x6D) rfl rfl (congrArg Instr.adcAbs (pair_hi_lo w))
theorem rorAbs (w : Word) : Statement (.rorAbs w) := ofBytes2 (o := 0x6E) rfl rfl (congrArg Instr.rorAbs (pair_hi_lo w))
theorem rraAbs (w : Word) : Statement (.rraAbs w) := ofBytes2 (o := 0x6F) rfl rfl (congrArg Instr.rraAbs (pair_hi_lo w))
theorem bvs (b : Byte) : Statement (.bvs b) := ofBytes1 (o := 0x70) rfl rfl rfl
theorem adcIndY (b : Byte) : Statement (.adcIndY b) := ofBytes1 (o := 0x71) rfl rfl rfl
theorem jam72 : Statement .jam72 := ofBytes0 (o := 0x72) rfl rfl rfl
theorem rraIndY (b : Byte) : Statement (.rraIndY b) := ofBytes1 (o := 0x73) rfl rfl rfl
theorem nopZpX74 (b : Byte) : Statement (.nopZpX74 b) := ofBytes1 (o := 0x74) rfl rfl rfl
theorem adcZpX (b : Byte) : Statement (.adcZpX b) := ofBytes1 (o := 0x75) rfl rfl rfl
theorem rorZpX (b : Byte) : Statement (.rorZpX b) := ofBytes1 (o := 0x76) rfl rfl rfl
theorem rraZpX (b : Byte) : Statement (.rraZpX b) := ofBytes1 (o := 0x77) rfl rfl rfl
theorem sei : Statement .sei := ofBytes0 (o := 0x78) rfl rfl rfl
theorem adcAbsY (w : Word) : Statement (.adcAbsY w) := ofBytes2 (o := 0x79) rfl rfl (congrArg Instr.adcAbsY (pair_hi_lo w))
theorem nop7A : Statement .nop7A := ofBytes0 (o := 0x7A) rfl rfl rfl
theorem rraAbsY (w : Word) : Statement (.rraAbsY w) := ofBytes2 (o := 0x7B) rfl rfl (congrArg Instr.rraAbsY (pair_hi_lo w))
theorem nopAbsX7C (w : Word) : Statement (.nopAbsX7C w) := ofBytes2 (o := 0x7C) rfl rfl (congrArg Instr.nopAbsX7C (pair_hi_lo w))
theorem adcAbsX (w : Word) : Statement (.adcAbsX w) := ofBytes2 (o := 0x7D) rfl rfl (congrArg Instr.adcAbsX (pair_hi_lo w))
theorem rorAbsX (w : Word) : Statement (.rorAbsX w) := ofBytes2 (o := 0x7E) rfl rfl (congrArg Instr.rorAbsX (pair_hi_lo w))
theorem rraAbsX (w : Word) : Statement (.rraAbsX w) := ofBytes2 (o := 0x7F) rfl rfl (congrArg Instr.rraAbsX (pair_hi_lo w))
theorem nopImm80 (b : Byte) : Statement (.nopImm80 b) := ofBytes1 (o := 0x80) rfl rfl rfl
theorem staIndX (b : Byte) : Statement (.staIndX b) := ofBytes1 (o := 0x81) rfl rfl rfl
theorem nopImm82 (b : Byte) : Statement (.nopImm82 b) := ofBytes1 (o := 0x82) rfl rfl rfl
theorem saxIndX (b : Byte) : Statement (.saxIndX b) := ofBytes1 (o := 0x83) rfl rfl rfl
theorem styZp (b : Byte) : Statement (.styZp b) := ofBytes1 (o := 0x84) rfl rfl rfl
theorem staZp (b : Byte) : Statement (.staZp b) := ofBytes1 (o := 0x85) rfl rfl rfl
theorem stxZp (b : Byte) : Statement (.stxZp b) := ofBytes1 (o := 0x86) rfl rfl rfl
theorem saxZp (b : Byte) : Statement (.saxZp b) := ofBytes1 (o := 0x87) rfl rfl rfl
theorem dey : Statement .dey := ofBytes0 (o := 0x88) rfl rfl rfl
theorem nopImm89 (b : Byte) : Statement (.nopImm89 b) := ofBytes1 (o := 0x89) rfl rfl rfl
theorem txa : Statement .txa := ofBytes0 (o := 0x8A) rfl rfl rfl
theorem aneImm (b : Byte) : Statement (.aneImm b) := ofBytes1 (o := 0x8B) rfl rfl rfl
theorem styAbs (w : Word) : Statement (.styAbs w) := ofBytes2 (o := 0x8C) rfl rfl (congrArg Instr.styAbs (pair_hi_lo w))
theorem staAbs (w : Word) : Statement (.staAbs w) := ofBytes2 (o := 0x8D) rfl rfl (congrArg Instr.staAbs (pair_hi_lo w))
theorem stxAbs (w : Word) : Statement (.stxAbs w) := ofBytes2 (o := 0x8E) rfl rfl (congrArg Instr.stxAbs (pair_hi_lo w))
theorem saxAbs (w : Word) : Statement (.saxAbs w) := ofBytes2 (o := 0x8F) rfl rfl (congrArg Instr.saxAbs (pair_hi_lo w))
theorem bcc (b : Byte) : Statement (.bcc b) := ofBytes1 (o := 0x90) rfl rfl rfl
theorem staIndY (b : Byte) : Statement (.staIndY b) := ofBytes1 (o := 0x91) rfl rfl rfl
theorem jam92 : Statement .jam92 := ofBytes0 (o := 0x92) rfl rfl rfl
theorem shaIndY (b : Byte) : Statement (.shaIndY b) := ofBytes1 (o := 0x93) rfl rfl rfl
theorem styZpX (b : Byte) : Statement (.styZpX b) := ofBytes1 (o := 0x94) rfl rfl rfl
theorem staZpX (b : Byte) : Statement (.staZpX b) := ofBytes1 (o := 0x95) rfl rfl rfl
theorem stxZpY (b : Byte) : Statement (.stxZpY b) := ofBytes1 (o := 0x96) rfl rfl rfl
theorem saxZpY (b : Byte) : Statement (.saxZpY b) := ofBytes1 (o := 0x97) rfl rfl rfl
theorem tya : Statement .tya := ofBytes0 (o := 0x98) rfl rfl rfl
theorem staAbsY (w : Word) : Statement (.staAbsY w) := ofBytes2 (o := 0x99) rfl rfl (congrArg Instr.staAbsY (pair_hi_lo w))
theorem txs : Statement .txs := ofBytes0 (o := 0x9A) rfl rfl rfl
theorem tasAbsY (w : Word) : Statement (.tasAbsY w) := ofBytes2 (o := 0x9B) rfl rfl (congrArg Instr.tasAbsY (pair_hi_lo w))
theorem shyAbsX (w : Word) : Statement (.shyAbsX w) := ofBytes2 (o := 0x9C) rfl rfl (congrArg Instr.shyAbsX (pair_hi_lo w))
theorem staAbsX (w : Word) : Statement (.staAbsX w) := ofBytes2 (o := 0x9D) rfl rfl (congrArg Instr.staAbsX (pair_hi_lo w))
theorem shxAbsY (w : Word) : Statement (.shxAbsY w) := ofBytes2 (o := 0x9E) rfl rfl (congrArg Instr.shxAbsY (pair_hi_lo w))
theorem shaAbsY (w : Word) : Statement (.shaAbsY w) := ofBytes2 (o := 0x9F) rfl rfl (congrArg Instr.shaAbsY (pair_hi_lo w))
theorem ldyImm (b : Byte) : Statement (.ldyImm b) := ofBytes1 (o := 0xA0) rfl rfl rfl
theorem ldaIndX (b : Byte) : Statement (.ldaIndX b) := ofBytes1 (o := 0xA1) rfl rfl rfl
theorem ldxImm (b : Byte) : Statement (.ldxImm b) := ofBytes1 (o := 0xA2) rfl rfl rfl
theorem laxIndX (b : Byte) : Statement (.laxIndX b) := ofBytes1 (o := 0xA3) rfl rfl rfl
theorem ldyZp (b : Byte) : Statement (.ldyZp b) := ofBytes1 (o := 0xA4) rfl rfl rfl
theorem ldaZp (b : Byte) : Statement (.ldaZp b) := ofBytes1 (o := 0xA5) rfl rfl rfl
theorem ldxZp (b : Byte) : Statement (.ldxZp b) := ofBytes1 (o := 0xA6) rfl rfl rfl
theorem laxZp (b : Byte) : Statement (.laxZp b) := ofBytes1 (o := 0xA7) rfl rfl rfl
theorem tay : Statement .tay := ofBytes0 (o := 0xA8) rfl rfl rfl
theorem ldaImm (b : Byte) : Statement (.ldaImm b) := ofBytes1 (o := 0xA9) rfl rfl rfl
theorem tax : Statement .tax := ofBytes0 (o := 0xAA) rfl rfl rfl
theorem lxaImm (b : Byte) : Statement (.lxaImm b) := ofBytes1 (o := 0xAB) rfl rfl rfl
theorem ldyAbs (w : Word) : Statement (.ldyAbs w) := ofBytes2 (o := 0xAC) rfl rfl (congrArg Instr.ldyAbs (pair_hi_lo w))
theorem ldaAbs (w : Word) : Statement (.ldaAbs w) := ofBytes2 (o := 0xAD) rfl rfl (congrArg Instr.ldaAbs (pair_hi_lo w))
theorem ldxAbs (w : Word) : Statement (.ldxAbs w) := ofBytes2 (o := 0xAE) rfl rfl (congrArg Instr.ldxAbs (pair_hi_lo w))
theorem laxAbs (w : Word) : Statement (.laxAbs w) := ofBytes2 (o := 0xAF) rfl rfl (congrArg Instr.laxAbs (pair_hi_lo w))
theorem bcs (b : Byte) : Statement (.bcs b) := ofBytes1 (o := 0xB0) rfl rfl rfl
theorem ldaIndY (b : Byte) : Statement (.ldaIndY b) := ofBytes1 (o := 0xB1) rfl rfl rfl
theorem jamB2 : Statement .jamB2 := ofBytes0 (o := 0xB2) rfl rfl rfl
theorem laxIndY (b : Byte) : Statement (.laxIndY b) := ofBytes1 (o := 0xB3) rfl rfl rfl
theorem ldyZpX (b : Byte) : Statement (.ldyZpX b) := ofBytes1 (o := 0xB4) rfl rfl rfl
theorem ldaZpX (b : Byte) : Statement (.ldaZpX b) := ofBytes1 (o := 0xB5) rfl rfl rfl
theorem ldxZpY (b : Byte) : Statement (.ldxZpY b) := ofBytes1 (o := 0xB6) rfl rfl rfl
theorem laxZpY (b : Byte) : Statement (.laxZpY b) := ofBytes1 (o := 0xB7) rfl rfl rfl
theorem clv : Statement .clv := ofBytes0 (o := 0xB8) rfl rfl rfl
theorem ldaAbsY (w : Word) : Statement (.ldaAbsY w) := ofBytes2 (o := 0xB9) rfl rfl (congrArg Instr.ldaAbsY (pair_hi_lo w))
theorem tsx : Statement .tsx := ofBytes0 (o := 0xBA) rfl rfl rfl
theorem lasAbsY (w : Word) : Statement (.lasAbsY w) := ofBytes2 (o := 0xBB) rfl rfl (congrArg Instr.lasAbsY (pair_hi_lo w))
theorem ldyAbsX (w : Word) : Statement (.ldyAbsX w) := ofBytes2 (o := 0xBC) rfl rfl (congrArg Instr.ldyAbsX (pair_hi_lo w))
theorem ldaAbsX (w : Word) : Statement (.ldaAbsX w) := ofBytes2 (o := 0xBD) rfl rfl (congrArg Instr.ldaAbsX (pair_hi_lo w))
theorem ldxAbsY (w : Word) : Statement (.ldxAbsY w) := ofBytes2 (o := 0xBE) rfl rfl (congrArg Instr.ldxAbsY (pair_hi_lo w))
theorem laxAbsY (w : Word) : Statement (.laxAbsY w) := ofBytes2 (o := 0xBF) rfl rfl (congrArg Instr.laxAbsY (pair_hi_lo w))
theorem cpyImm (b : Byte) : Statement (.cpyImm b) := ofBytes1 (o := 0xC0) rfl rfl rfl
theorem cmpIndX (b : Byte) : Statement (.cmpIndX b) := ofBytes1 (o := 0xC1) rfl rfl rfl
theorem nopImmC2 (b : Byte) : Statement (.nopImmC2 b) := ofBytes1 (o := 0xC2) rfl rfl rfl
theorem dcpIndX (b : Byte) : Statement (.dcpIndX b) := ofBytes1 (o := 0xC3) rfl rfl rfl
theorem cpyZp (b : Byte) : Statement (.cpyZp b) := ofBytes1 (o := 0xC4) rfl rfl rfl
theorem cmpZp (b : Byte) : Statement (.cmpZp b) := ofBytes1 (o := 0xC5) rfl rfl rfl
theorem decZp (b : Byte) : Statement (.decZp b) := ofBytes1 (o := 0xC6) rfl rfl rfl
theorem dcpZp (b : Byte) : Statement (.dcpZp b) := ofBytes1 (o := 0xC7) rfl rfl rfl
theorem iny : Statement .iny := ofBytes0 (o := 0xC8) rfl rfl rfl
theorem cmpImm (b : Byte) : Statement (.cmpImm b) := ofBytes1 (o := 0xC9) rfl rfl rfl
theorem dex : Statement .dex := ofBytes0 (o := 0xCA) rfl rfl rfl
theorem sbxImm (b : Byte) : Statement (.sbxImm b) := ofBytes1 (o := 0xCB) rfl rfl rfl
theorem cpyAbs (w : Word) : Statement (.cpyAbs w) := ofBytes2 (o := 0xCC) rfl rfl (congrArg Instr.cpyAbs (pair_hi_lo w))
theorem cmpAbs (w : Word) : Statement (.cmpAbs w) := ofBytes2 (o := 0xCD) rfl rfl (congrArg Instr.cmpAbs (pair_hi_lo w))
theorem decAbs (w : Word) : Statement (.decAbs w) := ofBytes2 (o := 0xCE) rfl rfl (congrArg Instr.decAbs (pair_hi_lo w))
theorem dcpAbs (w : Word) : Statement (.dcpAbs w) := ofBytes2 (o := 0xCF) rfl rfl (congrArg Instr.dcpAbs (pair_hi_lo w))
theorem bne (b : Byte) : Statement (.bne b) := ofBytes1 (o := 0xD0) rfl rfl rfl
theorem cmpIndY (b : Byte) : Statement (.cmpIndY b) := ofBytes1 (o := 0xD1) rfl rfl rfl
theorem jamD2 : Statement .jamD2 := ofBytes0 (o := 0xD2) rfl rfl rfl
theorem dcpIndY (b : Byte) : Statement (.dcpIndY b) := ofBytes1 (o := 0xD3) rfl rfl rfl
theorem nopZpXD4 (b : Byte) : Statement (.nopZpXD4 b) := ofBytes1 (o := 0xD4) rfl rfl rfl
theorem cmpZpX (b : Byte) : Statement (.cmpZpX b) := ofBytes1 (o := 0xD5) rfl rfl rfl
theorem decZpX (b : Byte) : Statement (.decZpX b) := ofBytes1 (o := 0xD6) rfl rfl rfl
theorem dcpZpX (b : Byte) : Statement (.dcpZpX b) := ofBytes1 (o := 0xD7) rfl rfl rfl
theorem cld : Statement .cld := ofBytes0 (o := 0xD8) rfl rfl rfl
theorem cmpAbsY (w : Word) : Statement (.cmpAbsY w) := ofBytes2 (o := 0xD9) rfl rfl (congrArg Instr.cmpAbsY (pair_hi_lo w))
theorem nopDA : Statement .nopDA := ofBytes0 (o := 0xDA) rfl rfl rfl
theorem dcpAbsY (w : Word) : Statement (.dcpAbsY w) := ofBytes2 (o := 0xDB) rfl rfl (congrArg Instr.dcpAbsY (pair_hi_lo w))
theorem nopAbsXDC (w : Word) : Statement (.nopAbsXDC w) := ofBytes2 (o := 0xDC) rfl rfl (congrArg Instr.nopAbsXDC (pair_hi_lo w))
theorem cmpAbsX (w : Word) : Statement (.cmpAbsX w) := ofBytes2 (o := 0xDD) rfl rfl (congrArg Instr.cmpAbsX (pair_hi_lo w))
theorem decAbsX (w : Word) : Statement (.decAbsX w) := ofBytes2 (o := 0xDE) rfl rfl (congrArg Instr.decAbsX (pair_hi_lo w))
theorem dcpAbsX (w : Word) : Statement (.dcpAbsX w) := ofBytes2 (o := 0xDF) rfl rfl (congrArg Instr.dcpAbsX (pair_hi_lo w))
theorem cpxImm (b : Byte) : Statement (.cpxImm b) := ofBytes1 (o := 0xE0) rfl rfl rfl
theorem sbcIndX (b : Byte) : Statement (.sbcIndX b) := ofBytes1 (o := 0xE1) rfl rfl rfl
theorem nopImmE2 (b : Byte) : Statement (.nopImmE2 b) := ofBytes1 (o := 0xE2) rfl rfl rfl
theorem iscIndX (b : Byte) : Statement (.iscIndX b) := ofBytes1 (o := 0xE3) rfl rfl rfl
theorem cpxZp (b : Byte) : Statement (.cpxZp b) := ofBytes1 (o := 0xE4) rfl rfl rfl
theorem sbcZp (b : Byte) : Statement (.sbcZp b) := ofBytes1 (o := 0xE5) rfl rfl rfl
theorem incZp (b : Byte) : Statement (.incZp b) := ofBytes1 (o := 0xE6) rfl rfl rfl
theorem iscZp (b : Byte) : Statement (.iscZp b) := ofBytes1 (o := 0xE7) rfl rfl rfl
theorem inx : Statement .inx := ofBytes0 (o := 0xE8) rfl rfl rfl
theorem sbcImm (b : Byte) : Statement (.sbcImm b) := ofBytes1 (o := 0xE9) rfl rfl rfl
theorem nop : Statement .nop := ofBytes0 (o := 0xEA) rfl rfl rfl
theorem usbcImm (b : Byte) : Statement (.usbcImm b) := ofBytes1 (o := 0xEB) rfl rfl rfl
theorem cpxAbs (w : Word) : Statement (.cpxAbs w) := ofBytes2 (o := 0xEC) rfl rfl (congrArg Instr.cpxAbs (pair_hi_lo w))
theorem sbcAbs (w : Word) : Statement (.sbcAbs w) := ofBytes2 (o := 0xED) rfl rfl (congrArg Instr.sbcAbs (pair_hi_lo w))
theorem incAbs (w : Word) : Statement (.incAbs w) := ofBytes2 (o := 0xEE) rfl rfl (congrArg Instr.incAbs (pair_hi_lo w))
theorem iscAbs (w : Word) : Statement (.iscAbs w) := ofBytes2 (o := 0xEF) rfl rfl (congrArg Instr.iscAbs (pair_hi_lo w))
theorem beq (b : Byte) : Statement (.beq b) := ofBytes1 (o := 0xF0) rfl rfl rfl
theorem sbcIndY (b : Byte) : Statement (.sbcIndY b) := ofBytes1 (o := 0xF1) rfl rfl rfl
theorem jamF2 : Statement .jamF2 := ofBytes0 (o := 0xF2) rfl rfl rfl
theorem iscIndY (b : Byte) : Statement (.iscIndY b) := ofBytes1 (o := 0xF3) rfl rfl rfl
theorem nopZpXF4 (b : Byte) : Statement (.nopZpXF4 b) := ofBytes1 (o := 0xF4) rfl rfl rfl
theorem sbcZpX (b : Byte) : Statement (.sbcZpX b) := ofBytes1 (o := 0xF5) rfl rfl rfl
theorem incZpX (b : Byte) : Statement (.incZpX b) := ofBytes1 (o := 0xF6) rfl rfl rfl
theorem iscZpX (b : Byte) : Statement (.iscZpX b) := ofBytes1 (o := 0xF7) rfl rfl rfl
theorem sed : Statement .sed := ofBytes0 (o := 0xF8) rfl rfl rfl
theorem sbcAbsY (w : Word) : Statement (.sbcAbsY w) := ofBytes2 (o := 0xF9) rfl rfl (congrArg Instr.sbcAbsY (pair_hi_lo w))
theorem nopFA : Statement .nopFA := ofBytes0 (o := 0xFA) rfl rfl rfl
theorem iscAbsY (w : Word) : Statement (.iscAbsY w) := ofBytes2 (o := 0xFB) rfl rfl (congrArg Instr.iscAbsY (pair_hi_lo w))
theorem nopAbsXFC (w : Word) : Statement (.nopAbsXFC w) := ofBytes2 (o := 0xFC) rfl rfl (congrArg Instr.nopAbsXFC (pair_hi_lo w))
theorem sbcAbsX (w : Word) : Statement (.sbcAbsX w) := ofBytes2 (o := 0xFD) rfl rfl (congrArg Instr.sbcAbsX (pair_hi_lo w))
theorem incAbsX (w : Word) : Statement (.incAbsX w) := ofBytes2 (o := 0xFE) rfl rfl (congrArg Instr.incAbsX (pair_hi_lo w))
theorem iscAbsX (w : Word) : Statement (.iscAbsX w) := ofBytes2 (o := 0xFF) rfl rfl (congrArg Instr.iscAbsX (pair_hi_lo w))

end Sys2Proof.Laws.OwnBytes
end

