-- ==== Sys2Proof/Laws/RowTicks.lean ====
section
/-!
SUPPORT. One row of a cycle table, tick by tick: the ticks of R91 and R93 that complete a row's bus cycle do what `Row.run` does in one
go.
-/

namespace Sys2Proof.Machine

/-- `s` inside a running sequence: cycle `n` of sequence `q`. -/
def State.within (q : Seq) (n : Nat) (s : State) : State := { s with seq := q, t := n }

/-- The memory map resolves the bus cycle just emitted (R97), taken from `lastBus` instead of the pin word. -/
def State.answer (s : State) : State :=
  match s.lastBus with
  | some c => if c.read then s.accessRead c.addr else s.accessWrite c.addr c.data
  | none => s

/-- A system step (R97) without the pin word. -/
def State.lineTick (s : State) : State :=
  State.answer (State.clock s.dbus (s.inputs.headD Lines.idle) { s with inputs := s.inputs.tail })

def State.lineTicks : Nat → State → State
  | 0, s => s
  | n + 1, s => State.lineTicks n s.lineTick

theorem State.lineTicks_succ (n : Nat) (s : State) : State.lineTicks (n + 1) s = State.lineTicks n s.lineTick := rfl

/-- A row's bus cycle emitted and resolved, not yet complete. -/
def Row.start (r : Row) (s : State) : State :=
  match r.value with
  | none => s.emitRead (r.addr s) r.sync
  | some v => (r.act s).emitWrite (r.addr s) (v s)

theorem accessRead_within (a : Word) (q : Seq) (n : Nat) (s : State) :
    State.accessRead a (s.within q n) = (s.accessRead a).within q n := by
  unfold State.accessRead
  have h : (s.within q n).resolve a = s.resolve a := rfl
  rw [h]
  split <;> rfl

theorem accessWrite_within (a : Word) (v : Byte) (q : Seq) (n : Nat) (s : State) :
    State.accessWrite a v (s.within q n) = (s.accessWrite a v).within q n := by
  unfold State.accessWrite
  have h : (s.within q n).resolve a = s.resolve a := rfl
  rw [h]
  split <;> rfl

/-- The table of a running sequence depends on the sequence, the instruction register and the parameters only. -/
theorem rows_congr {s t : State} (hq : t.seq = s.seq) (hi : t.latch.ir = s.latch.ir) (hc : t.cfg = s.cfg) : t.rows = s.rows := by
  unfold State.rows
  rw [hq, hi, hc]

/-! ### One tick inside a sequence -/

/-- A wait (R93): the read is emitted again. -/
theorem clock_wait {s : State} {d : Byte} {l : Lines} {c : BusCycle} (ht : s.t ≠ 0) (hb : s.lastBus = some c) (hr : c.read = true)
    (hl : l.rdy = true) : s.clock d l = State.drive { c with data := d } { s.sample l with dbus := d } := by
  have hlast : ({ s.sample l with dbus := d } : State).lastRead = true := by
    show (match s.lastBus with | some c => c.read | none => false) = true
    rw [hb]
    exact hr
  have hrep : ({ s.sample l with dbus := d } : State).repeatCycle = State.drive { c with data := d } { s.sample l with dbus := d } := by
    show (match s.lastBus with | none => _ | some c => _) = _
    rw [hb]
  show (if s.t = 0 then _ else if (l.rdy && ({ s.sample l with dbus := d } : State).lastRead) = true then _ else _) = _
  rw [if_neg ht, if_pos (by rw [hl, hlast]; rfl), hrep]

/-- The tick that gives a read cycle its byte (R91). -/
theorem clock_read {s : State} {d : Byte} {l : Lines} {r : Row} (ht : s.t ≠ 0) (hrow : s.rows[s.t - 1]? = some r)
    (hv : r.value = none) (hl : l.rdy = false) :
    s.clock d l = (r.act (State.latchDl { s.sample l with dbus := d })).advance := by
  have hc : ({ s.sample l with dbus := d } : State).completeRow = r.act (State.latchDl { s.sample l with dbus := d }) := by
    have h : ({ s.sample l with dbus := d } : State).rows[s.t - 1]? = some r := by
      rw [← hrow]
      exact congrArg (fun x => x[s.t - 1]?) (rows_congr rfl rfl rfl)
    show (match ({ s.sample l with dbus := d } : State).rows[s.t - 1]? with | none => _ | some r => _) = _
    rw [h]
    dsimp only
    rw [hv]
  show (if s.t = 0 then _ else if (l.rdy && ({ s.sample l with dbus := d } : State).lastRead) = true then _ else
    State.advance (State.completeRow { s.sample l with dbus := d })) = _
  rw [if_neg ht, if_neg (by rw [hl]; exact Bool.false_ne_true), hc]

/-- The tick after a write cycle, whatever RDY is (R93, R95). -/
theorem clock_write {s : State} {d : Byte} {l : Lines} {r : Row} {v : State → Byte} {c : BusCycle} (ht : s.t ≠ 0)
    (hrow : s.rows[s.t - 1]? = some r) (hv : r.value = some v) (hb : s.lastBus = some c) (hr : c.read = false) :
    s.clock d l = State.advance { s.sample l with dbus := d } := by
  have hlast : ({ s.sample l with dbus := d } : State).lastRead = false := by
    show (match s.lastBus with | some c => c.read | none => false) = false
    rw [hb]
    exact hr
  have hc : ({ s.sample l with dbus := d } : State).completeRow = { s.sample l with dbus := d } := by
    have h : ({ s.sample l with dbus := d } : State).rows[s.t - 1]? = some r := by
      rw [← hrow]
      exact congrArg (fun x => x[s.t - 1]?) (rows_congr rfl rfl rfl)
    show (match ({ s.sample l with dbus := d } : State).rows[s.t - 1]? with | none => _ | some r => _) = _
    rw [h]
    dsimp only
    rw [hv]
  show (if s.t = 0 then _ else if (l.rdy && ({ s.sample l with dbus := d } : State).lastRead) = true then _ else
    State.advance (State.completeRow { s.sample l with dbus := d })) = _
  rw [if_neg ht, if_neg (by rw [hlast, Bool.and_false]; exact Bool.false_ne_true), hc]

/-! ### The ticks of one row -/

theorem settleRead_length (a : Word) (y : Bool) (ls : List Lines) (s : State) :
    s.trace.length ≤ (State.settleRead a y ls s).trace.length := by
  induction ls generalizing s with
  | nil => exact Nat.le_refl _
  | cons l ls ih =>
    unfold State.settleRead
    split
    · refine Nat.le_trans ?_ (ih _)
      rw [emitRead_trace]
      exact Nat.le_succ _
    · exact Nat.le_refl _

/-- The ticks that complete a read cycle, waits included (R93), and begin what follows it. -/
theorem settleRead_ticks {r : Row} (hv : r.value = none) {n : Nat} (hn : n ≠ 0) (q : Seq) (a : Word) (y : Bool) :
    ∀ (ls : List Lines) (u : State) (d : Byte), u.inputs = ls →
      u.lastBus = some { addr := a, read := true, data := d, sync := y } → (u.within q n).rows[n - 1]? = some r →
      State.lineTicks ((State.settleRead a y ls u).trace.length - u.trace.length + 1) (u.within q n) =
        State.answer (State.advance (r.act ((State.settleRead a y ls u).within q n)))
  | [], u, d, hi, hb, hr => by
    have hrow : ({ u.within q n with inputs := [] } : State).rows[n - 1]? = some r := by
      rw [← hr]
      exact congrArg (fun x => x[n - 1]?) (rows_congr rfl rfl rfl)
    have htick := clock_read (s := { u.within q n with inputs := [] }) (d := u.dbus) (l := Lines.idle) hn hrow hv rfl
    have hlen : (State.settleRead a y [] u).trace.length - u.trace.length + 1 = 1 := congrArg (· + 1) (Nat.sub_self u.trace.length)
    rw [hlen]
    have hone : State.lineTicks 1 (u.within q n) =
        State.answer (State.clock u.dbus (u.inputs.headD Lines.idle) { u.within q n with inputs := u.inputs.tail }) := rfl
    rw [hone, hi]
    exact congrArg State.answer htick
  | l :: ls, u, d, hi, hb, hr => by
    have hrow : ({ u.within q n with inputs := ls } : State).rows[n - 1]? = some r := by
      rw [← hr]
      exact congrArg (fun x => x[n - 1]?) (rows_congr rfl rfl rfl)
    have hone : State.lineTick (u.within q n) =
        State.answer (State.clock u.dbus (u.inputs.headD Lines.idle) { u.within q n with inputs := u.inputs.tail }) := rfl
    rw [hi] at hone
    cases hl : l.rdy with
    | false =>
      have hs : State.settleRead a y (l :: ls) u = State.latchDl { u.sample l with inputs := ls } := by
        unfold State.settleRead
        rw [hl, if_neg Bool.false_ne_true]
      have htick := clock_read (s := { u.within q n with inputs := ls }) (d := u.dbus) hn hrow hv hl
      have hlen : (State.settleRead a y (l :: ls) u).trace.length - u.trace.length + 1 = 1 := by
        rw [hs]
        exact congrArg (· + 1) (Nat.sub_self u.trace.length)
      rw [hlen, hs]
      exact hone.trans (congrArg State.answer htick)
    | true =>
      have hs : State.settleRead a y (l :: ls) u =
          State.settleRead a y ls (State.emitRead a y { u.sample l with inputs := ls }) := by
        conv_lhs => unfold State.settleRead
        rw [if_pos hl]
      have htick : State.lineTick (u.within q n) = (State.emitRead a y { u.sample l with inputs := ls }).within q n := by
        rw [hone]
        have h := clock_wait (s := { u.within q n with inputs := ls }) (d := u.dbus) hn hb rfl hl
        refine (congrArg State.answer h).trans ?_
        exact accessRead_within a q n
          (State.drive { addr := a, read := true, data := u.dbus, sync := y } { u.sample l with inputs := ls })
      have htr : (State.emitRead a y { u.sample l with inputs := ls }).trace.length = u.trace.length + 1 := by
        rw [emitRead_trace]
        rfl
      have hmono := settleRead_length a y ls (State.emitRead a y { u.sample l with inputs := ls })
      have hlen : (State.settleRead a y (l :: ls) u).trace.length - u.trace.length + 1 =
          (State.settleRead a y ls (State.emitRead a y { u.sample l with inputs := ls })).trace.length -
            (State.emitRead a y { u.sample l with inputs := ls }).trace.length + 1 + 1 := by
        rw [hs, htr]
        omega
      rw [hlen, State.lineTicks_succ, htick, hs]
      refine settleRead_ticks hv hn q a y ls _ _ (emitRead_inputs a y _) (emitRead_lastBus a y _) ?_
      rw [← hr]
      exact congrArg (fun x => x[n - 1]?) (rows_congr rfl
        (congrArg Latches.ir (emitRead_latch a y _)) (emitRead_cfg a y _))

/-- The ticks of one row: from the row's bus cycle on the pins, as many ticks as the row has bus cycles lead to where the row has been
performed and what follows it begins. -/
theorem row_ticks {r : Row} (h : LocalRow r) {n : Nat} (hn : n ≠ 0) (q : Seq) (s : State)
    (hrow : (s.within q n).rows[n - 1]? = some r) (hir : r.value ≠ none → (r.act s).latch.ir = s.latch.ir) :
    State.lineTicks ((r.run s).trace.length - s.trace.length) ((r.start s).within q n) =
      match r.value with
      | none => State.answer (State.advance (r.act ((s.readCycle (r.addr s) r.sync).within q n)))
      | some _ => State.answer (State.advance ((r.run s).within q n)) := by
  cases hv : r.value with
  | none =>
    have hrun : r.run s = r.act (State.settleRead (r.addr s) r.sync s.inputs (s.emitRead (r.addr s) r.sync)) := by
      unfold Row.run
      rw [hv]
      rfl
    have hstart : r.start s = s.emitRead (r.addr s) r.sync := by
      unfold Row.start
      rw [hv]
    have htr := emitRead_trace (r.addr s) r.sync s
    have hlen : (r.run s).trace.length - s.trace.length =
        (State.settleRead (r.addr s) r.sync s.inputs (s.emitRead (r.addr s) r.sync)).trace.length -
          (s.emitRead (r.addr s) r.sync).trace.length + 1 := by
      have hmono := settleRead_length (r.addr s) r.sync s.inputs (s.emitRead (r.addr s) r.sync)
      rw [hrun, (h.act.quiet _).trace]
      rw [htr, List.length_cons] at hmono ⊢
      omega
    rw [hlen, hstart]
    refine settleRead_ticks hv hn q _ _ _ _ _ (emitRead_inputs _ _ _) (emitRead_lastBus _ _ _) ?_
    rw [← hrow]
    exact congrArg (fun x => x[n - 1]?) (rows_congr rfl
      (congrArg Latches.ir (emitRead_latch (r.addr s) r.sync s)) (emitRead_cfg (r.addr s) r.sync s))
  | some v =>
    have hrun : r.run s = (r.act s).writeCycle (r.addr s) (v s) := by
      unfold Row.run
      rw [hv]
    have hstart : r.start s = (r.act s).emitWrite (r.addr s) (v s) := by
      unfold Row.start
      rw [hv]
    have hlen : (r.run s).trace.length - s.trace.length = 1 := by
      rw [hrun, writeCycle_trace, (h.act.quiet s).trace, List.length_cons]
      omega
    have hq := h.act.quiet s
    have hrow' : ({ (r.start s).within q n with inputs := (r.start s).inputs.tail } : State).rows[n - 1]? = some r := by
      rw [← hrow]
      refine congrArg (fun x => x[n - 1]?) (rows_congr rfl ?_ ?_)
      · show (r.start s).latch.ir = s.latch.ir
        rw [hstart, ← hir (by rw [hv]; nofun)]
        exact congrArg Latches.ir (by simp [State.emitWrite])
      · show (r.start s).cfg = s.cfg
        rw [hstart, ← hq.cfg]
        simp [State.emitWrite]
    have hb : (r.start s).lastBus = some { addr := r.addr s, read := false, data := v s, sync := false } := by
      rw [hstart]
      simp [State.emitWrite]
    have htick := clock_write (s := { (r.start s).within q n with inputs := (r.start s).inputs.tail }) (d := (r.start s).dbus)
      (l := (r.start s).inputs.headD Lines.idle) hn hrow' hv hb rfl
    rw [hlen]
    have hone : State.lineTicks 1 ((r.start s).within q n) = State.answer (State.clock (r.start s).dbus
      ((r.start s).inputs.headD Lines.idle) { (r.start s).within q n with inputs := (r.start s).inputs.tail }) := rfl
    rw [hone, htick, hrun]
    rw [hstart]
    rfl

end Sys2Proof.Machine
end

