-- ==== Sys2Proof/Tests/Slice0.lean ====
section
/-!
SUPPORT. The model's own tests. Expected values come from the spec: the opcode map of R147 for the words, the checks of R5, R102 and
R106 for the ill-formed terms, the vectors of 95_test_vectors.md (each theorem carries its vector's id) for the steps; and for every
statement with hypotheses a state that meets them.
-/

namespace Sys2Proof.Tests

open Sys2Proof.Machine Sys2Proof.Claims

/-! ### Well-formedness: one ill-formed term for each check -/

/-- The standard parameters with other mirror regions. -/
def withMirrors (ms : List MirrorRegion) : Config := { Config.standard with mirrors := ms }

theorem test_standard_wellFormed : Config.standard.wellFormed = true := by decide
theorem test_no_mirror_wellFormed : (withMirrors []).wellFormed = true := by decide
theorem test_mirror_low_above_high :
    (withMirrors [{ low := 0x2000, high := 0x1FFF, base := 0, size := 0x800 }]).wellFormed = false := by decide
theorem test_mirror_size_zero :
    (withMirrors [{ low := 0x0000, high := 0x1FFF, base := 0, size := 0 }]).wellFormed = false := by decide
theorem test_mirror_past_the_array :
    (withMirrors [{ low := 0x0000, high := 0x1FFF, base := 0xF801, size := 0x800 }]).wellFormed = false ∧
    (withMirrors [{ low := 0x0000, high := 0x1FFF, base := 0xF800, size := 0x800 }]).wellFormed = true := by decide
theorem test_mirrors_overlap :
    (withMirrors [{ low := 0x0000, high := 0x1FFF, base := 0, size := 0x800 },
      { low := 0x1FFF, high := 0x3FFF, base := 0x2000, size := 8 }]).wellFormed = false := by decide
theorem test_reset_cycles_five : ({ Config.standard with resetCycles := 5 } : Config).wellFormed = false := by decide
theorem test_hook_low_above_high : hooksWellFormed [{ low := 0x4001, high := 0x4000, handler := 0 }] = false := by decide
theorem test_hooks_overlap :
    hooksWellFormed [{ low := 0x4000, high := 0x4007, handler := 0 }, { low := 0x4007, high := 0x4010, handler := 1 }] = false ∧
    hooksWellFormed [{ low := 0x4000, high := 0x4007, handler := 0 }, { low := 0x4008, high := 0x4010, handler := 1 }] = true := by
  decide
/-- No instruction is ill formed; a byte string too short for its opcode is refused, by name. -/
theorem test_truncated :
    decode [] = .error (.truncated 1) ∧ decode [0xA9] = .error (.truncated 1) ∧ decode [0x4C] = .error (.truncated 2) ∧
    decode [0x4C, 0x34] = .error (.truncated 1) := ⟨rfl, rfl, rfl, rfl⟩

/-! ### Decoding: every opcode of the map of R147, a one-byte operand 0x9C, a two-byte operand 0x34 then 0xA2 -/

/-- The bytes decode to the instruction, with nothing left over. -/
def reads (bytes : List Byte) (i : Instr) : Bool :=
  match decode bytes with
  | .ok (j, rest) => j == i && rest == []
  | .error _ => false

theorem test_decode_load_store_transfer_1 :
    (reads [0xA1, 0x9C] (.ldaIndX 0x9C) && reads [0xA5, 0x9C] (.ldaZp 0x9C) && reads [0xA9, 0x9C] (.ldaImm 0x9C) &&
      reads [0xAD, 0x34, 0xA2] (.ldaAbs 0xA234) && reads [0xB1, 0x9C] (.ldaIndY 0x9C) && reads [0xB5, 0x9C] (.ldaZpX 0x9C) &&
      reads [0xB9, 0x34, 0xA2] (.ldaAbsY 0xA234) && reads [0xBD, 0x34, 0xA2] (.ldaAbsX 0xA234) &&
      reads [0xA2, 0x9C] (.ldxImm 0x9C) && reads [0xA6, 0x9C] (.ldxZp 0x9C) && reads [0xAE, 0x34, 0xA2] (.ldxAbs 0xA234) &&
      reads [0xB6, 0x9C] (.ldxZpY 0x9C) && reads [0xBE, 0x34, 0xA2] (.ldxAbsY 0xA234) && reads [0xA0, 0x9C] (.ldyImm 0x9C) &&
      reads [0xA4, 0x9C] (.ldyZp 0x9C) && reads [0xAC, 0x34, 0xA2] (.ldyAbs 0xA234) && reads [0xB4, 0x9C] (.ldyZpX 0x9C) &&
      reads [0xBC, 0x34, 0xA2] (.ldyAbsX 0xA234) && reads [0x81, 0x9C] (.staIndX 0x9C)) = true := by decide
theorem test_decode_load_store_transfer_2 :
    (reads [0x85, 0x9C] (.staZp 0x9C) && reads [0x8D, 0x34, 0xA2] (.staAbs 0xA234) && reads [0x91, 0x9C] (.staIndY 0x9C) &&
      reads [0x95, 0x9C] (.staZpX 0x9C) && reads [0x99, 0x34, 0xA2] (.staAbsY 0xA234) &&
      reads [0x9D, 0x34, 0xA2] (.staAbsX 0xA234) && reads [0x86, 0x9C] (.stxZp 0x9C) &&
      reads [0x8E, 0x34, 0xA2] (.stxAbs 0xA234) && reads [0x96, 0x9C] (.stxZpY 0x9C) && reads [0x84, 0x9C] (.styZp 0x9C) &&
      reads [0x8C, 0x34, 0xA2] (.styAbs 0xA234) && reads [0x94, 0x9C] (.styZpX 0x9C) && reads [0xAA] .tax &&
      reads [0xA8] .tay && reads [0x8A] .txa && reads [0x98] .tya && reads [0xBA] .tsx &&
      reads [0x9A] .txs) = true := by decide
theorem test_decode_stack :
    (reads [0x48] .pha && reads [0x08] .php && reads [0x68] .pla && reads [0x28] .plp) = true := by decide
theorem test_decode_alu_1 :
    (reads [0x61, 0x9C] (.adcIndX 0x9C) && reads [0x65, 0x9C] (.adcZp 0x9C) && reads [0x69, 0x9C] (.adcImm 0x9C) &&
      reads [0x6D, 0x34, 0xA2] (.adcAbs 0xA234) && reads [0x71, 0x9C] (.adcIndY 0x9C) && reads [0x75, 0x9C] (.adcZpX 0x9C) &&
      reads [0x79, 0x34, 0xA2] (.adcAbsY 0xA234) && reads [0x7D, 0x34, 0xA2] (.adcAbsX 0xA234) &&
      reads [0xE1, 0x9C] (.sbcIndX 0x9C) && reads [0xE5, 0x9C] (.sbcZp 0x9C) && reads [0xE9, 0x9C] (.sbcImm 0x9C) &&
      reads [0xED, 0x34, 0xA2] (.sbcAbs 0xA234) && reads [0xF1, 0x9C] (.sbcIndY 0x9C) && reads [0xF5, 0x9C] (.sbcZpX 0x9C) &&
      reads [0xF9, 0x34, 0xA2] (.sbcAbsY 0xA234) && reads [0xFD, 0x34, 0xA2] (.sbcAbsX 0xA234) &&
      reads [0x21, 0x9C] (.andIndX 0x9C) && reads [0x25, 0x9C] (.andZp 0x9C) &&
      reads [0x29, 0x9C] (.andImm 0x9C)) = true := by decide
theorem test_decode_alu_2 :
    (reads [0x2D, 0x34, 0xA2] (.andAbs 0xA234) && reads [0x31, 0x9C] (.andIndY 0x9C) && reads [0x35, 0x9C] (.andZpX 0x9C) &&
      reads [0x39, 0x34, 0xA2] (.andAbsY 0xA234) && reads [0x3D, 0x34, 0xA2] (.andAbsX 0xA234) &&
      reads [0x01, 0x9C] (.oraIndX 0x9C) && reads [0x05, 0x9C] (.oraZp 0x9C) && reads [0x09, 0x9C] (.oraImm 0x9C) &&
      reads [0x0D, 0x34, 0xA2] (.oraAbs 0xA234) && reads [0x11, 0x9C] (.oraIndY 0x9C) && reads [0x15, 0x9C] (.oraZpX 0x9C) &&
      reads [0x19, 0x34, 0xA2] (.oraAbsY 0xA234) && reads [0x1D, 0x34, 0xA2] (.oraAbsX 0xA234) &&
      reads [0x41, 0x9C] (.eorIndX 0x9C) && reads [0x45, 0x9C] (.eorZp 0x9C) && reads [0x49, 0x9C] (.eorImm 0x9C) &&
      reads [0x4D, 0x34, 0xA2] (.eorAbs 0xA234) && reads [0x51, 0x9C] (.eorIndY 0x9C) &&
      reads [0x55, 0x9C] (.eorZpX 0x9C)) = true := by decide
theorem test_decode_alu_3 :
    (reads [0x59, 0x34, 0xA2] (.eorAbsY 0xA234) && reads [0x5D, 0x34, 0xA2] (.eorAbsX 0xA234) &&
      reads [0xC1, 0x9C] (.cmpIndX 0x9C) && reads [0xC5, 0x9C] (.cmpZp 0x9C) && reads [0xC9, 0x9C] (.cmpImm 0x9C) &&
      reads [0xCD, 0x34, 0xA2] (.cmpAbs 0xA234) && reads [0xD1, 0x9C] (.cmpIndY 0x9C) && reads [0xD5, 0x9C] (.cmpZpX 0x9C) &&
      reads [0xD9, 0x34, 0xA2] (.cmpAbsY 0xA234) && reads [0xDD, 0x34, 0xA2] (.cmpAbsX 0xA234) &&
      reads [0xE0, 0x9C] (.cpxImm 0x9C) && reads [0xE4, 0x9C] (.cpxZp 0x9C) && reads [0xEC, 0x34, 0xA2] (.cpxAbs 0xA234) &&
      reads [0xC0, 0x9C] (.cpyImm 0x9C) && reads [0xC4, 0x9C] (.cpyZp 0x9C) && reads [0xCC, 0x34, 0xA2] (.cpyAbs 0xA234) &&
      reads [0x24, 0x9C] (.bitZp 0x9C) && reads [0x2C, 0x34, 0xA2] (.bitAbs 0xA234)) = true := by decide
theorem test_decode_incdec_shift_1 :
    (reads [0xE6, 0x9C] (.incZp 0x9C) && reads [0xEE, 0x34, 0xA2] (.incAbs 0xA234) && reads [0xF6, 0x9C] (.incZpX 0x9C) &&
      reads [0xFE, 0x34, 0xA2] (.incAbsX 0xA234) && reads [0xC6, 0x9C] (.decZp 0x9C) &&
      reads [0xCE, 0x34, 0xA2] (.decAbs 0xA234) && reads [0xD6, 0x9C] (.decZpX 0x9C) &&
      reads [0xDE, 0x34, 0xA2] (.decAbsX 0xA234) && reads [0xE8] .inx && reads [0xC8] .iny && reads [0xCA] .dex &&
      reads [0x88] .dey && reads [0x06, 0x9C] (.aslZp 0x9C) && reads [0x0A] .aslAcc &&
      reads [0x0E, 0x34, 0xA2] (.aslAbs 0xA234) && reads [0x16, 0x9C] (.aslZpX 0x9C)) = true := by decide
theorem test_decode_incdec_shift_2 :
    (reads [0x1E, 0x34, 0xA2] (.aslAbsX 0xA234) && reads [0x46, 0x9C] (.lsrZp 0x9C) && reads [0x4A] .lsrAcc &&
      reads [0x4E, 0x34, 0xA2] (.lsrAbs 0xA234) && reads [0x56, 0x9C] (.lsrZpX 0x9C) &&
      reads [0x5E, 0x34, 0xA2] (.lsrAbsX 0xA234) && reads [0x26, 0x9C] (.rolZp 0x9C) && reads [0x2A] .rolAcc &&
      reads [0x2E, 0x34, 0xA2] (.rolAbs 0xA234) && reads [0x36, 0x9C] (.rolZpX 0x9C) &&
      reads [0x3E, 0x34, 0xA2] (.rolAbsX 0xA234) && reads [0x66, 0x9C] (.rorZp 0x9C) && reads [0x6A] .rorAcc &&
      reads [0x6E, 0x34, 0xA2] (.rorAbs 0xA234) && reads [0x76, 0x9C] (.rorZpX 0x9C) &&
      reads [0x7E, 0x34, 0xA2] (.rorAbsX 0xA234)) = true := by decide
theorem test_decode_control :
    (reads [0x4C, 0x34, 0xA2] (.jmpAbs 0xA234) && reads [0x6C, 0x34, 0xA2] (.jmpInd 0xA234) &&
      reads [0x20, 0x34, 0xA2] (.jsr 0xA234) && reads [0x60] .rts && reads [0x40] .rti && reads [0x00] .brk &&
      reads [0x10, 0x9C] (.bpl 0x9C) && reads [0x30, 0x9C] (.bmi 0x9C) && reads [0x50, 0x9C] (.bvc 0x9C) &&
      reads [0x70, 0x9C] (.bvs 0x9C) && reads [0x90, 0x9C] (.bcc 0x9C) && reads [0xB0, 0x9C] (.bcs 0x9C) &&
      reads [0xD0, 0x9C] (.bne 0x9C) && reads [0xF0, 0x9C] (.beq 0x9C)) = true := by decide
theorem test_decode_flags_nop :
    (reads [0x18] .clc && reads [0x38] .sec && reads [0x58] .cli && reads [0x78] .sei && reads [0xD8] .cld &&
      reads [0xF8] .sed && reads [0xB8] .clv && reads [0xEA] .nop) = true := by decide
theorem test_decode_illegal_1 :
    (reads [0x03, 0x9C] (.sloIndX 0x9C) && reads [0x07, 0x9C] (.sloZp 0x9C) && reads [0x0F, 0x34, 0xA2] (.sloAbs 0xA234) &&
      reads [0x13, 0x9C] (.sloIndY 0x9C) && reads [0x17, 0x9C] (.sloZpX 0x9C) &&
      reads [0x1B, 0x34, 0xA2] (.sloAbsY 0xA234) && reads [0x1F, 0x34, 0xA2] (.sloAbsX 0xA234) &&
      reads [0x23, 0x9C] (.rlaIndX 0x9C) && reads [0x27, 0x9C] (.rlaZp 0x9C) && reads [0x2F, 0x34, 0xA2] (.rlaAbs 0xA234) &&
      reads [0x33, 0x9C] (.rlaIndY 0x9C) && reads [0x37, 0x9C] (.rlaZpX 0x9C) &&
      reads [0x3B, 0x34, 0xA2] (.rlaAbsY 0xA234) && reads [0x3F, 0x34, 0xA2] (.rlaAbsX 0xA234) &&
      reads [0x43, 0x9C] (.sreIndX 0x9C) && reads [0x47, 0x9C] (.sreZp 0x9C) &&
      reads [0x4F, 0x34, 0xA2] (.sreAbs 0xA234)) = true := by decide
theorem test_decode_illegal_2 :
    (reads [0x53, 0x9C] (.sreIndY 0x9C) && reads [0x57, 0x9C] (.sreZpX 0x9C) && reads [0x5B, 0x34, 0xA2] (.sreAbsY 0xA234) &&
      reads [0x5F, 0x34, 0xA2] (.sreAbsX 0xA234) && reads [0x63, 0x9C] (.rraIndX 0x9C) && reads [0x67, 0x9C] (.rraZp 0x9C) &&
      reads [0x6F, 0x34, 0xA2] (.rraAbs 0xA234) && reads [0x73, 0x9C] (.rraIndY 0x9C) && reads [0x77, 0x9C] (.rraZpX 0x9C) &&
      reads [0x7B, 0x34, 0xA2] (.rraAbsY 0xA234) && reads [0x7F, 0x34, 0xA2] (.rraAbsX 0xA234) &&
      reads [0xC3, 0x9C] (.dcpIndX 0x9C) && reads [0xC7, 0x9C] (.dcpZp 0x9C) && reads [0xCF, 0x34, 0xA2] (.dcpAbs 0xA234) &&
      reads [0xD3, 0x9C] (.dcpIndY 0x9C) && reads [0xD7, 0x9C] (.dcpZpX 0x9C) &&
      reads [0xDB, 0x34, 0xA2] (.dcpAbsY 0xA234)) = true := by decide
theorem test_decode_illegal_3 :
    (reads [0xDF, 0x34, 0xA2] (.dcpAbsX 0xA234) && reads [0xE3, 0x9C] (.iscIndX 0x9C) && reads [0xE7, 0x9C] (.iscZp 0x9C) &&
      reads [0xEF, 0x34, 0xA2] (.iscAbs 0xA234) && reads [0xF3, 0x9C] (.iscIndY 0x9C) && reads [0xF7, 0x9C] (.iscZpX 0x9C) &&
      reads [0xFB, 0x34, 0xA2] (.iscAbsY 0xA234) && reads [0xFF, 0x34, 0xA2] (.iscAbsX 0xA234) &&
      reads [0x83, 0x9C] (.saxIndX 0x9C) && reads [0x87, 0x9C] (.saxZp 0x9C) && reads [0x8F, 0x34, 0xA2] (.saxAbs 0xA234) &&
      reads [0x97, 0x9C] (.saxZpY 0x9C) && reads [0xA3, 0x9C] (.laxIndX 0x9C) && reads [0xA7, 0x9C] (.laxZp 0x9C) &&
      reads [0xAF, 0x34, 0xA2] (.laxAbs 0xA234) && reads [0xB3, 0x9C] (.laxIndY 0x9C) &&
      reads [0xB7, 0x9C] (.laxZpY 0x9C)) = true := by decide
theorem test_decode_illegal_4 :
    (reads [0xBF, 0x34, 0xA2] (.laxAbsY 0xA234) && reads [0xBB, 0x34, 0xA2] (.lasAbsY 0xA234) &&
      reads [0x0B, 0x9C] (.ancImm0B 0x9C) && reads [0x2B, 0x9C] (.ancImm2B 0x9C) && reads [0x4B, 0x9C] (.alrImm 0x9C) &&
      reads [0x6B, 0x9C] (.arrImm 0x9C) && reads [0x8B, 0x9C] (.aneImm 0x9C) && reads [0xAB, 0x9C] (.lxaImm 0x9C) &&
      reads [0xCB, 0x9C] (.sbxImm 0x9C) && reads [0xEB, 0x9C] (.usbcImm 0x9C) && reads [0x93, 0x9C] (.shaIndY 0x9C) &&
      reads [0x9F, 0x34, 0xA2] (.shaAbsY 0xA234) && reads [0x9E, 0x34, 0xA2] (.shxAbsY 0xA234) &&
      reads [0x9C, 0x34, 0xA2] (.shyAbsX 0xA234) && reads [0x9B, 0x34, 0xA2] (.tasAbsY 0xA234)) = true := by decide
theorem test_decode_illegal_nop_1 :
    (reads [0x04, 0x9C] (.nopZp04 0x9C) && reads [0x0C, 0x34, 0xA2] (.nopAbs 0xA234) &&
      reads [0x14, 0x9C] (.nopZpX14 0x9C) && reads [0x1A] .nop1A && reads [0x1C, 0x34, 0xA2] (.nopAbsX1C 0xA234) &&
      reads [0x34, 0x9C] (.nopZpX34 0x9C) && reads [0x3A] .nop3A && reads [0x3C, 0x34, 0xA2] (.nopAbsX3C 0xA234) &&
      reads [0x44, 0x9C] (.nopZp44 0x9C) && reads [0x54, 0x9C] (.nopZpX54 0x9C) && reads [0x5A] .nop5A &&
      reads [0x5C, 0x34, 0xA2] (.nopAbsX5C 0xA234) && reads [0x64, 0x9C] (.nopZp64 0x9C) &&
      reads [0x74, 0x9C] (.nopZpX74 0x9C)) = true := by decide
theorem test_decode_illegal_nop_2 :
    (reads [0x7A] .nop7A && reads [0x7C, 0x34, 0xA2] (.nopAbsX7C 0xA234) && reads [0x80, 0x9C] (.nopImm80 0x9C) &&
      reads [0x82, 0x9C] (.nopImm82 0x9C) && reads [0x89, 0x9C] (.nopImm89 0x9C) && reads [0xC2, 0x9C] (.nopImmC2 0x9C) &&
      reads [0xD4, 0x9C] (.nopZpXD4 0x9C) && reads [0xDA] .nopDA && reads [0xDC, 0x34, 0xA2] (.nopAbsXDC 0xA234) &&
      reads [0xE2, 0x9C] (.nopImmE2 0x9C) && reads [0xF4, 0x9C] (.nopZpXF4 0x9C) && reads [0xFA] .nopFA &&
      reads [0xFC, 0x34, 0xA2] (.nopAbsXFC 0xA234)) = true := by decide
theorem test_decode_jam :
    (reads [0x02] .jam02 && reads [0x12] .jam12 && reads [0x22] .jam22 && reads [0x32] .jam32 && reads [0x42] .jam42 &&
      reads [0x52] .jam52 && reads [0x62] .jam62 && reads [0x72] .jam72 && reads [0x92] .jam92 && reads [0xB2] .jamB2 &&
      reads [0xD2] .jamD2 && reads [0xF2] .jamF2) = true := by decide

/-- The base cycle counts of the map of R147, row by row. -/
def mapCycles : List (List Nat) :=
  [[7, 6, 2, 8, 3, 3, 5, 5, 3, 2, 2, 2, 4, 4, 6, 6],
   [2, 5, 2, 8, 4, 4, 6, 6, 2, 4, 2, 7, 4, 4, 7, 7],
   [6, 6, 2, 8, 3, 3, 5, 5, 4, 2, 2, 2, 4, 4, 6, 6],
   [2, 5, 2, 8, 4, 4, 6, 6, 2, 4, 2, 7, 4, 4, 7, 7],
   [6, 6, 2, 8, 3, 3, 5, 5, 3, 2, 2, 2, 3, 4, 6, 6],
   [2, 5, 2, 8, 4, 4, 6, 6, 2, 4, 2, 7, 4, 4, 7, 7],
   [6, 6, 2, 8, 3, 3, 5, 5, 4, 2, 2, 2, 5, 4, 6, 6],
   [2, 5, 2, 8, 4, 4, 6, 6, 2, 4, 2, 7, 4, 4, 7, 7]] ++
  [[2, 6, 2, 6, 3, 3, 3, 3, 2, 2, 2, 2, 4, 4, 4, 4],
   [2, 6, 2, 6, 4, 4, 4, 4, 2, 5, 2, 5, 5, 5, 5, 5],
   [2, 6, 2, 6, 3, 3, 3, 3, 2, 2, 2, 2, 4, 4, 4, 4],
   [2, 5, 2, 5, 4, 4, 4, 4, 2, 4, 2, 4, 4, 4, 4, 4],
   [2, 6, 2, 8, 3, 3, 5, 5, 2, 2, 2, 2, 4, 4, 6, 6],
   [2, 5, 2, 8, 4, 4, 6, 6, 2, 4, 2, 7, 4, 4, 7, 7],
   [2, 6, 2, 8, 3, 3, 5, 5, 2, 2, 2, 2, 4, 4, 6, 6],
   [2, 5, 2, 8, 4, 4, 6, 6, 2, 4, 2, 7, 4, 4, 7, 7]]

theorem test_base_cycles :
    (List.range 16).map (fun h => (List.range 16).map (fun l => (descriptor (BitVec.ofNat 8 (16 * h + l))).cycles)) = mapCycles := by
  decide

/-! ### Steps: vectors of 95_test_vectors.md, one step each -/

/-- The start state of a vector: after reset, PC at `pc`, the code there, some array bytes and registers set. -/
def start (cfg : Config) (pc : Word) (code : List Byte) (cells : List (Nat × Byte)) (r : Regs → Regs) : State :=
  let s := State.pokeBytes { State.reset with cfg := cfg, trace := [] } pc code
  { s with mem := cells.foldl (fun m c => Memory.set m c.1 c.2) s.mem, regs := r { s.regs with pc := pc } }

/-- The next step ends with these registers, array bytes and number of cycles. -/
def ends (s : State) (r : Regs → Regs) (cells : List (Nat × Byte)) (cycles : Nat) : Bool :=
  match step s with
  | .next t => t.regs == r s.regs && cells.all (fun c => Memory.get t.mem c.1 == c.2) && t.trace.length == s.trace.length + cycles
  | .refused _ => false

/-- The next step puts exactly these cycles on the bus. -/
def shows (s : State) (l : List Pins) : Bool :=
  match step s with
  | .next t => t.trace.map BusCycle.pins == l.reverse ++ s.trace.map BusCycle.pins
  | .refused _ => false

/-- Decimal mode enabled (D6). -/
def decimal : Config := { Config.standard with decimalMode := true }

/-- The status byte, read form, into the flags. -/
def st (v : Byte) (r : Regs) : Regs := { r with p := unpackP v }

theorem test_ldx_AM3 :
    ends (start Config.standard 0x8000 [0xB6, 0xFF] [(0x0000, 0x22)] (fun r => { r with y := 0x01 }))
      (fun r => { r with x := 0x22, pc := 0x8002 }) [] 4 = true := by decide
theorem test_lda_bus_AM6 :
    shows (start Config.standard 0x8000 [0xBD, 0xFF, 0x30] [(0x3100, 0x44)] (fun r => { r with x := 0x01 }))
      [.fetch 0x8000, .read 0x8001, .read 0x8002, .read 0x3000, .read 0x3100] = true := by decide
theorem test_lda_AM6 :
    ends (start Config.standard 0x8000 [0xBD, 0xFF, 0x30] [(0x3100, 0x44)] (fun r => { r with x := 0x01 }))
      (fun r => { r with a := 0x44, pc := 0x8003 }) [] 5 = true := by decide
theorem test_inc_bus_AM9 :
    shows (start Config.standard 0x8000 [0xFE, 0x00, 0x30] [(0x3001, 0x7F)] (fun r => { r with x := 0x01 }))
      [.fetch 0x8000, .read 0x8001, .read 0x8002, .read 0x3001, .read 0x3001, .write 0x3001 0x7F, .write 0x3001 0x80] = true := by decide
theorem test_inc_AM9 :
    ends (start Config.standard 0x8000 [0xFE, 0x00, 0x30] [(0x3001, 0x7F)] (fun r => { r with x := 0x01 }))
      (fun r => { r with pc := 0x8003, p := { r.p with n := true, z := false } }) [(0x3001, 0x80)] 7 = true := by decide
theorem test_lda_bus_AM11 :
    shows (start Config.standard 0x8000 [0xA1, 0xFF] [(0x00FF, 0x10), (0x0000, 0x30), (0x3010, 0x66)] (fun r => { r with x := 0x00 }))
      [.fetch 0x8000, .read 0x8001, .read 0x00FF, .read 0x00FF, .read 0x0000, .read 0x3010] = true := by decide
theorem test_lda_AM11 :
    ends (start Config.standard 0x8000 [0xA1, 0xFF] [(0x00FF, 0x10), (0x0000, 0x30), (0x3010, 0x66)] (fun r => { r with x := 0x00 }))
      (fun r => { r with a := 0x66, pc := 0x8002 }) [] 6 = true := by decide
theorem test_lda_AM13 :
    ends (start Config.standard 0x8000 [0xB1, 0x40] [(0x0040, 0xFF), (0x0041, 0x30), (0x3100, 0x78)] (fun r => { r with y := 0x01 }))
      (fun r => { r with a := 0x78, pc := 0x8002 }) [] 6 = true := by decide
theorem test_sta_bus_AM15 :
    shows (start Config.standard 0x8000 [0x91, 0x40] [(0x0040, 0x00), (0x0041, 0x30)] (fun r => { r with a := 0x5C, y := 0x02 }))
      [.fetch 0x8000, .read 0x8001, .read 0x0040, .read 0x0041, .read 0x3002, .write 0x3002 0x5C] = true := by decide
theorem test_sta_AM15 :
    ends (start Config.standard 0x8000 [0x91, 0x40] [(0x0040, 0x00), (0x0041, 0x30)] (fun r => { r with a := 0x5C, y := 0x02 }))
      (fun r => { r with pc := 0x8002 }) [(0x3002, 0x5C)] 6 = true := by decide
theorem test_asl_bus_AM23 :
    shows (start Config.standard 0x8000 [0x1E, 0xFF, 0x30] [(0x3100, 0x80)] (fun r => { r with x := 0x01 }))
      [.fetch 0x8000, .read 0x8001, .read 0x8002, .read 0x3000, .read 0x3100, .write 0x3100 0x80, .write 0x3100 0x00] = true := by decide
theorem test_asl_AM23 :
    ends (start Config.standard 0x8000 [0x1E, 0xFF, 0x30] [(0x3100, 0x80)] (fun r => { r with x := 0x01 }))
      (fun r => { r with pc := 0x8003, p := { r.p with c := true, z := true } }) [(0x3100, 0x00)] 7 = true := by decide
theorem test_jmp_bus_AM25 :
    shows (start Config.standard 0x8000 [0x6C, 0xFF, 0x30] [(0x30FF, 0x00), (0x3000, 0x40), (0x3100, 0x50)] (id))
      [.fetch 0x8000, .read 0x8001, .read 0x8002, .read 0x30FF, .read 0x3000] = true := by decide
theorem test_jmp_AM25 :
    ends (start Config.standard 0x8000 [0x6C, 0xFF, 0x30] [(0x30FF, 0x00), (0x3000, 0x40), (0x3100, 0x50)] (id))
      (fun r => { r with pc := 0x4000 }) [] 5 = true := by decide
theorem test_sta_bus_AM26 :
    shows (start Config.standard 0x8000 [0x81, 0x20] [(0x0022, 0x10), (0x0023, 0x30)] (fun r => { r with a := 0xAB, x := 0x02 }))
      [.fetch 0x8000, .read 0x8001, .read 0x0020, .read 0x0022, .read 0x0023, .write 0x3010 0xAB] = true := by decide
theorem test_sta_AM26 :
    ends (start Config.standard 0x8000 [0x81, 0x20] [(0x0022, 0x10), (0x0023, 0x30)] (fun r => { r with a := 0xAB, x := 0x02 }))
      (fun r => { r with pc := 0x8002 }) [(0x3010, 0xAB)] 6 = true := by decide
theorem test_ldx_AM28 :
    ends (start Config.standard 0x8000 [0xBE, 0x01, 0xFF] [(0x0000, 0x0C)] (fun r => { r with y := 0xFF }))
      (fun r => { r with x := 0x0C, pc := 0x8003 }) [] 5 = true := by decide
theorem test_sta_AM29 :
    ends (start Config.standard 0x8000 [0x8D, 0x05, 0x08] [] (fun r => { r with a := 0x5D }))
      (fun r => { r with pc := 0x8003 }) [(0x0005, 0x5D)] 4 = true := by decide
theorem test_lda_bus_AM30 :
    shows (start Config.standard 0xFFFF [0xAD, 0x00, 0x30] [(0x3000, 0x5E)] (id))
      [.fetch 0xFFFF, .read 0x0000, .read 0x0001, .read 0x3000] = true := by decide
theorem test_lda_AM30 :
    ends (start Config.standard 0xFFFF [0xAD, 0x00, 0x30] [(0x3000, 0x5E)] (id))
      (fun r => { r with a := 0x5E, pc := 0x02 }) [] 4 = true := by decide
theorem test_lda_LS1 :
    ends (start Config.standard 0x8000 [0xA9, 0x80] [] (fun r => st 0x24 r))
      (fun r => { r with a := 0x80, pc := 0x8002, p := { r.p with n := true, z := false } }) [] 2 = true := by decide
theorem test_ldy_LS5 :
    ends (start Config.standard 0x8000 [0xBC, 0xF0, 0x30] [(0x3110, 0xFE)] (fun r => { r with x := 0x20 }))
      (fun r => { r with y := 0xFE, pc := 0x8003, p := { r.p with n := true } }) [] 5 = true := by decide
theorem test_ldy_LS4 :
    ends (start Config.standard 0x8000 [0xA0, 0x7F] [] (id))
      (fun r => { r with y := 0x7F, pc := 0x8002, p := { r.p with n := false, z := false } }) [] 2 = true := by decide
theorem test_stx_bus_LS7 :
    shows (start Config.standard 0x8000 [0x96, 0x10] [] (fun r => { r with x := 0x05, y := 0xFF }))
      [.fetch 0x8000, .read 0x8001, .read 0x0010, .write 0x000F 0x05] = true := by decide
theorem test_stx_LS7 :
    ends (start Config.standard 0x8000 [0x96, 0x10] [] (fun r => { r with x := 0x05, y := 0xFF }))
      (fun r => { r with pc := 0x8002 }) [(0x000F, 0x05)] 4 = true := by decide
theorem test_sty_LS8 :
    ends (start Config.standard 0x8000 [0x84, 0x20] [] (fun r => { r with y := 0x11 }))
      (fun r => { r with pc := 0x8002 }) [(0x0020, 0x11)] 3 = true := by decide
theorem test_tax_LS9 :
    ends (start Config.standard 0x8000 [0xAA] [] (fun r => { r with a := 0xFF }))
      (fun r => { r with x := 0xFF, pc := 0x8001, p := { r.p with n := true, z := false } }) [] 2 = true := by decide
theorem test_tay_LS10 :
    ends (start Config.standard 0x8000 [0xA8] [] (fun r => { r with a := 0x00, y := 0x33 }))
      (fun r => { r with y := 0x00, pc := 0x8001, p := { r.p with z := true, n := false } }) [] 2 = true := by decide
theorem test_txa_LS11 :
    ends (start Config.standard 0x8000 [0x8A] [] (fun r => { r with x := 0x80 }))
      (fun r => { r with a := 0x80, pc := 0x8001, p := { r.p with n := true } }) [] 2 = true := by decide
theorem test_tya_LS12 :
    ends (start Config.standard 0x8000 [0x98] [] (fun r => { r with y := 0x01 }))
      (fun r => { r with a := 0x01, pc := 0x8001, p := { r.p with n := false, z := false } }) [] 2 = true := by decide
theorem test_tsx_LS13 :
    ends (start Config.standard 0x8000 [0xBA] [] (fun r => { r with s := 0x00 }))
      (fun r => { r with x := 0x00, pc := 0x8001, p := { r.p with z := true, n := false } }) [] 2 = true := by decide
theorem test_txs_LS14 :
    ends (start Config.standard 0x8000 [0x9A] [] (fun r => st 0x24 { r with x := 0x00 }))
      (fun r => st 0x24 { r with s := 0x00, pc := 0x8001 }) [] 2 = true := by decide
theorem test_pha_ST2 :
    ends (start Config.standard 0x8000 [0x48] [] (fun r => { r with a := 0x77, s := 0x00 }))
      (fun r => { r with s := 0xFF, pc := 0x8001 }) [(0x0100, 0x77)] 3 = true := by decide
theorem test_php_ST3 :
    ends (start Config.standard 0x8000 [0x08] [] (fun r => st 0x24 { r with s := 0xFD }))
      (fun r => { r with s := 0xFC, pc := 0x8001 }) [(0x01FD, 0x34)] 3 = true := by decide
theorem test_pla_bus_ST5 :
    shows (start Config.standard 0x8000 [0x68] [(0x01FD, 0x80)] (fun r => { r with s := 0xFC }))
      [.fetch 0x8000, .read 0x8001, .read 0x01FC, .read 0x01FD] = true := by decide
theorem test_pla_ST5 :
    ends (start Config.standard 0x8000 [0x68] [(0x01FD, 0x80)] (fun r => { r with s := 0xFC }))
      (fun r => { r with a := 0x80, s := 0xFD, pc := 0x8001, p := { r.p with n := true, z := false } }) [] 4 = true := by decide
theorem test_pla_ST6 :
    ends (start Config.standard 0x8000 [0x68] [(0x0100, 0x00)] (fun r => { r with s := 0xFF, a := 0x11 }))
      (fun r => { r with a := 0x00, s := 0x00, pc := 0x8001, p := { r.p with z := true } }) [] 4 = true := by decide
theorem test_plp_ST7 :
    ends (start Config.standard 0x8000 [0x28] [(0x01FD, 0xFF)] (fun r => { r with s := 0xFC }))
      (fun r => st 0xEF { r with s := 0xFD, pc := 0x8001 }) [] 4 = true := by decide
theorem test_adc_AL1 :
    ends (start Config.standard 0x8000 [0x69, 0x50] [] (fun r => st 0x20 { r with a := 0x50 }))
      (fun r => { r with a := 0xA0, pc := 0x8002, p := { r.p with n := true, v := true, z := false, c := false } }) [] 2 = true := by decide
theorem test_adc_AL3 :
    ends (start Config.standard 0x8000 [0x69, 0x80] [] (fun r => st 0x20 { r with a := 0x80 }))
      (fun r => { r with a := 0x00, pc := 0x8002, p := { r.p with c := true, z := true, v := true, n := false } }) [] 2 = true := by decide
theorem test_sbc_AL7 :
    ends (start Config.standard 0x8000 [0xE9, 0x01] [] (fun r => st 0x21 { r with a := 0x00 }))
      (fun r => { r with a := 0xFF, pc := 0x8002, p := { r.p with c := false, n := true, v := false, z := false } }) [] 2 = true := by decide
theorem test_sbc_AL8 :
    ends (start Config.standard 0x8000 [0xE9, 0x01] [] (fun r => st 0x21 { r with a := 0x80 }))
      (fun r => { r with a := 0x7F, pc := 0x8002, p := { r.p with c := true, v := true, n := false } }) [] 2 = true := by decide
theorem test_adc_DM2 :
    ends (start decimal 0x8000 [0x69, 0x01] [] (fun r => st 0x28 { r with a := 0x99 }))
      (fun r => { r with a := 0x00, pc := 0x8002, p := { r.p with c := true, n := true, v := false, z := false } }) [] 2 = true := by decide
theorem test_adc_DM3 :
    ends (start decimal 0x8000 [0x69, 0x46] [] (fun r => st 0x29 { r with a := 0x58 }))
      (fun r => { r with a := 0x05, pc := 0x8002, p := { r.p with c := true, n := true, v := true, z := false } }) [] 2 = true := by decide
theorem test_sbc_DM5 :
    ends (start decimal 0x8000 [0xE9, 0x01] [] (fun r => st 0x29 { r with a := 0x00 }))
      (fun r => { r with a := 0x99, pc := 0x8002, p := { r.p with c := false, n := true, v := false, z := false } }) [] 2 = true := by decide
theorem test_and_AL14 :
    ends (start Config.standard 0x8000 [0x29, 0x3C] [] (fun r => { r with a := 0xF0 }))
      (fun r => { r with a := 0x30, pc := 0x8002, p := { r.p with n := false, z := false } }) [] 2 = true := by decide
theorem test_ora_AL16 :
    ends (start Config.standard 0x8000 [0x09, 0x80] [] (fun r => { r with a := 0x0F }))
      (fun r => { r with a := 0x8F, pc := 0x8002, p := { r.p with n := true } }) [] 2 = true := by decide
theorem test_eor_AL17 :
    ends (start Config.standard 0x8000 [0x49, 0x0F] [] (fun r => { r with a := 0xFF }))
      (fun r => { r with a := 0xF0, pc := 0x8002, p := { r.p with n := true } }) [] 2 = true := by decide
theorem test_cmp_AL21 :
    ends (start Config.standard 0x8000 [0xC9, 0x00] [] (fun r => { r with a := 0x80 }))
      (fun r => { r with pc := 0x8002, p := { r.p with c := true, z := false, n := true } }) [] 2 = true := by decide
theorem test_cmp_AL22 :
    ends (start Config.standard 0x8000 [0xC9, 0x01] [] (fun r => { r with a := 0x00 }))
      (fun r => { r with pc := 0x8002, p := { r.p with c := false, z := false, n := true } }) [] 2 = true := by decide
theorem test_cpx_AL23 :
    ends (start Config.standard 0x8000 [0xE0, 0x41] [] (fun r => { r with x := 0x40 }))
      (fun r => { r with pc := 0x8002, p := { r.p with c := false, z := false, n := true } }) [] 2 = true := by decide
theorem test_cpy_AL24 :
    ends (start Config.standard 0x8000 [0xC0, 0x40] [] (fun r => { r with y := 0x40 }))
      (fun r => { r with pc := 0x8002, p := { r.p with c := true, z := true, n := false } }) [] 2 = true := by decide
theorem test_bit_AL25 :
    ends (start Config.standard 0x8000 [0x24, 0x10] [(0x0010, 0xC0)] (fun r => st 0x20 { r with a := 0x01 }))
      (fun r => { r with a := 0x01, pc := 0x8002, p := { r.p with z := true, n := true, v := true } }) [] 3 = true := by decide
theorem test_bit_AL26 :
    ends (start Config.standard 0x8000 [0x2C, 0x00, 0x30] [(0x3000, 0x3F)] (fun r => st 0xE2 { r with a := 0xFF }))
      (fun r => { r with pc := 0x8003, p := { r.p with z := false, n := false, v := false } }) [] 4 = true := by decide
theorem test_dec_ID2 :
    ends (start Config.standard 0x8000 [0xCE, 0x00, 0x30] [(0x3000, 0x00)] (id))
      (fun r => { r with pc := 0x8003, p := { r.p with n := true, z := false } }) [(0x3000, 0xFF)] 6 = true := by decide
theorem test_inc_ID16 :
    ends (start Config.standard 0x8000 [0xF6, 0xFF] [(0x0010, 0x7F)] (fun r => { r with x := 0x11 }))
      (fun r => { r with pc := 0x8002, p := { r.p with n := true } }) [(0x0010, 0x80)] 6 = true := by decide
theorem test_inx_ID3 :
    ends (start Config.standard 0x8000 [0xE8] [] (fun r => { r with x := 0xFF }))
      (fun r => { r with x := 0x00, pc := 0x8001, p := { r.p with z := true, n := false } }) [] 2 = true := by decide
theorem test_iny_ID4 :
    ends (start Config.standard 0x8000 [0xC8] [] (fun r => { r with y := 0x7F }))
      (fun r => { r with y := 0x80, pc := 0x8001, p := { r.p with n := true } }) [] 2 = true := by decide
theorem test_dex_ID5 :
    ends (start Config.standard 0x8000 [0xCA] [] (fun r => { r with x := 0x01 }))
      (fun r => { r with x := 0x00, pc := 0x8001, p := { r.p with z := true } }) [] 2 = true := by decide
theorem test_dey_ID6 :
    ends (start Config.standard 0x8000 [0x88] [] (fun r => { r with y := 0x00 }))
      (fun r => { r with y := 0xFF, pc := 0x8001, p := { r.p with n := true, z := false } }) [] 2 = true := by decide
theorem test_asl_ID7 :
    ends (start Config.standard 0x8000 [0x0A] [] (fun r => st 0x20 { r with a := 0xC1 }))
      (fun r => { r with a := 0x82, pc := 0x8001, p := { r.p with c := true, n := true, z := false } }) [] 2 = true := by decide
theorem test_lsr_ID10 :
    ends (start Config.standard 0x8000 [0x46, 0x20] [(0x0020, 0x81)] (id))
      (fun r => { r with pc := 0x8002, p := { r.p with c := true, n := false, z := false } }) [(0x0020, 0x40)] 5 = true := by decide
theorem test_lsr_ID9 :
    ends (start Config.standard 0x8000 [0x4A] [] (fun r => st 0xA0 { r with a := 0x01 }))
      (fun r => { r with a := 0x00, pc := 0x8001, p := { r.p with c := true, z := true, n := false } }) [] 2 = true := by decide
theorem test_rol_ID11 :
    ends (start Config.standard 0x8000 [0x2A] [] (fun r => st 0x21 { r with a := 0x40 }))
      (fun r => { r with a := 0x81, pc := 0x8001, p := { r.p with c := false, n := true } }) [] 2 = true := by decide
theorem test_ror_ID14 :
    ends (start Config.standard 0x8000 [0x66, 0x10] [(0x0010, 0x00)] (fun r => st 0x21 r))
      (fun r => { r with pc := 0x8002, p := { r.p with c := false, n := true, z := false } }) [(0x0010, 0x80)] 5 = true := by decide
theorem test_ror_ID13 :
    ends (start Config.standard 0x8000 [0x6A] [] (fun r => st 0x21 { r with a := 0x03 }))
      (fun r => { r with a := 0x81, pc := 0x8001, p := { r.p with c := true, n := true } }) [] 2 = true := by decide
theorem test_jmp_CT1 :
    ends (start Config.standard 0x8000 [0x4C, 0x34, 0x12] [] (id))
      (fun r => { r with pc := 0x1234 }) [] 3 = true := by decide
theorem test_jsr_bus_CT3 :
    shows (start Config.standard 0x8000 [0x20, 0x00, 0x90] [] (fun r => { r with s := 0xFD }))
      [.fetch 0x8000, .read 0x8001, .read 0x01FD, .write 0x01FD 0x80, .write 0x01FC 0x02, .read 0x8002] = true := by decide
theorem test_jsr_CT3 :
    ends (start Config.standard 0x8000 [0x20, 0x00, 0x90] [] (fun r => { r with s := 0xFD }))
      (fun r => { r with pc := 0x9000, s := 0xFB }) [(0x01FD, 0x80), (0x01FC, 0x02)] 6 = true := by decide
theorem test_jsr_CT5 :
    ends (start Config.standard 0x8000 [0x20, 0x00, 0x90] [] (fun r => { r with s := 0x00 }))
      (fun r => { r with pc := 0x9000, s := 0xFE }) [(0x0100, 0x80), (0x01FF, 0x02)] 6 = true := by decide
theorem test_rts_bus_CT4 :
    shows (start Config.standard 0x8000 [0x60] [(0x01FC, 0x02), (0x01FD, 0x80)] (fun r => { r with s := 0xFB }))
      [.fetch 0x8000, .read 0x8001, .read 0x01FB, .read 0x01FC, .read 0x01FD, .read 0x8002] = true := by decide
theorem test_rts_CT4 :
    ends (start Config.standard 0x8000 [0x60] [(0x01FC, 0x02), (0x01FD, 0x80)] (fun r => { r with s := 0xFB }))
      (fun r => { r with pc := 0x8003, s := 0xFD }) [] 6 = true := by decide
theorem test_rti_bus_CT6 :
    shows (start Config.standard 0x8000 [0x40] [(0x01FB, 0x20), (0x01FC, 0x03), (0x01FD, 0x80)] (fun r => { r with s := 0xFA }))
      [.fetch 0x8000, .read 0x8001, .read 0x01FA, .read 0x01FB, .read 0x01FC, .read 0x01FD] = true := by decide
theorem test_rti_CT6 :
    ends (start Config.standard 0x8000 [0x40] [(0x01FB, 0x20), (0x01FC, 0x03), (0x01FD, 0x80)] (fun r => { r with s := 0xFA }))
      (fun r => st 0x20 { r with pc := 0x8003, s := 0xFD }) [] 6 = true := by decide
theorem test_brk_bus_CT8 :
    shows (start Config.standard 0x8000 [0x00, 0xEA] [(0xFFFE, 0x00), (0xFFFF, 0x90)] (fun r => st 0x20 { r with s := 0xFD }))
      [.fetch 0x8000, .read 0x8001, .write 0x01FD 0x80, .write 0x01FC 0x02, .write 0x01FB 0x30, .read 0xFFFE, .read 0xFFFF] = true := by decide
theorem test_brk_CT8 :
    ends (start Config.standard 0x8000 [0x00, 0xEA] [(0xFFFE, 0x00), (0xFFFF, 0x90)] (fun r => st 0x20 { r with s := 0xFD }))
      (fun r => st 0x24 { r with pc := 0x9000, s := 0xFA }) [(0x01FD, 0x80), (0x01FC, 0x02), (0x01FB, 0x30)] 7 = true := by decide
theorem test_bpl_CT9 :
    ends (start Config.standard 0x8000 [0x10, 0x02] [] (fun r => st 0x20 r))
      (fun r => { r with pc := 0x8004 }) [] 3 = true := by decide
theorem test_bmi_CT10 :
    ends (start Config.standard 0x8000 [0x30, 0x02] [] (fun r => st 0x20 r))
      (fun r => { r with pc := 0x8002 }) [] 2 = true := by decide
theorem test_bvc_CT11 :
    ends (start Config.standard 0x8000 [0x50, 0xFE] [] (fun r => st 0x20 r))
      (fun r => { r with pc := 0x8000 }) [] 3 = true := by decide
theorem test_bvs_bus_CT12 :
    shows (start Config.standard 0x80F0 [0x70, 0x10] [] (fun r => st 0x60 r))
      [.fetch 0x80F0, .read 0x80F1, .read 0x80F2, .read 0x8002] = true := by decide
theorem test_bvs_CT12 :
    ends (start Config.standard 0x80F0 [0x70, 0x10] [] (fun r => st 0x60 r))
      (fun r => { r with pc := 0x8102 }) [] 4 = true := by decide
theorem test_bcc_bus_CT13 :
    shows (start Config.standard 0x8000 [0x90, 0x80] [] (fun r => st 0x20 r))
      [.fetch 0x8000, .read 0x8001, .read 0x8002, .read 0x8082] = true := by decide
theorem test_bcc_CT13 :
    ends (start Config.standard 0x8000 [0x90, 0x80] [] (fun r => st 0x20 r))
      (fun r => { r with pc := 0x7F82 }) [] 4 = true := by decide
theorem test_bcs_CT14 :
    ends (start Config.standard 0x8000 [0xB0, 0x7F] [] (fun r => st 0x21 r))
      (fun r => { r with pc := 0x8081 }) [] 3 = true := by decide
theorem test_bne_CT15 :
    ends (start Config.standard 0x8000 [0xD0, 0xFC] [] (fun r => st 0x22 r))
      (fun r => { r with pc := 0x8002 }) [] 2 = true := by decide
theorem test_beq_CT16 :
    ends (start Config.standard 0x8010 [0xF0, 0xFC] [] (fun r => st 0x22 r))
      (fun r => { r with pc := 0x800E }) [] 3 = true := by decide
theorem test_clc_FL1 :
    ends (start Config.standard 0x8000 [0x18] [] (fun r => st 0x25 r))
      (fun r => st 0x24 { r with pc := 0x8001 }) [] 2 = true := by decide
theorem test_sec_FL2 :
    ends (start Config.standard 0x8000 [0x38] [] (fun r => st 0x24 r))
      (fun r => st 0x25 { r with pc := 0x8001 }) [] 2 = true := by decide
theorem test_cli_FL3 :
    ends (start Config.standard 0x8000 [0x58] [] (fun r => st 0x24 r))
      (fun r => st 0x20 { r with pc := 0x8001 }) [] 2 = true := by decide
theorem test_sei_FL4 :
    ends (start Config.standard 0x8000 [0x78] [] (fun r => st 0x20 r))
      (fun r => st 0x24 { r with pc := 0x8001 }) [] 2 = true := by decide
theorem test_cld_FL5 :
    ends (start Config.standard 0x8000 [0xD8] [] (fun r => st 0x2C r))
      (fun r => st 0x24 { r with pc := 0x8001 }) [] 2 = true := by decide
theorem test_sed_FL6 :
    ends (start Config.standard 0x8000 [0xF8] [] (fun r => st 0x24 r))
      (fun r => st 0x2C { r with pc := 0x8001 }) [] 2 = true := by decide
theorem test_clv_FL7 :
    ends (start Config.standard 0x8000 [0xB8] [] (fun r => st 0x64 r))
      (fun r => st 0x24 { r with pc := 0x8001 }) [] 2 = true := by decide
theorem test_nop_bus_FL8 :
    shows (start Config.standard 0x8000 [0xEA] [] (fun r => st 0xE7 { r with a := 0x12, x := 0x34, y := 0x56 }))
      [.fetch 0x8000, .read 0x8001] = true := by decide
theorem test_nop_FL8 :
    ends (start Config.standard 0x8000 [0xEA] [] (fun r => st 0xE7 { r with a := 0x12, x := 0x34, y := 0x56 }))
      (fun r => st 0xE7 { r with a := 0x12, x := 0x34, y := 0x56, pc := 0x8001 }) [] 2 = true := by decide
theorem test_slo_IL1 :
    ends (start Config.standard 0x8000 [0x07, 0x10] [(0x0010, 0x81)] (fun r => st 0x20 { r with a := 0x01 }))
      (fun r => { r with a := 0x03, pc := 0x8002, p := { r.p with c := true, n := false, z := false } }) [(0x0010, 0x02)] 5 = true := by decide
theorem test_rla_IL2 :
    ends (start Config.standard 0x8000 [0x27, 0x10] [(0x0010, 0x81)] (fun r => st 0x20 { r with a := 0xFF }))
      (fun r => { r with a := 0x02, pc := 0x8002, p := { r.p with c := true } }) [(0x0010, 0x02)] 5 = true := by decide
theorem test_sre_IL3 :
    ends (start Config.standard 0x8000 [0x47, 0x10] [(0x0010, 0x03)] (fun r => { r with a := 0x01 }))
      (fun r => { r with a := 0x00, pc := 0x8002, p := { r.p with z := true, c := true } }) [(0x0010, 0x01)] 5 = true := by decide
theorem test_rra_IL4 :
    ends (start Config.standard 0x8000 [0x67, 0x10] [(0x0010, 0x02)] (fun r => st 0x21 { r with a := 0x10 }))
      (fun r => { r with a := 0x91, pc := 0x8002, p := { r.p with c := false, n := true, v := false } }) [(0x0010, 0x81)] 5 = true := by decide
theorem test_sax_IL5 :
    ends (start Config.standard 0x8000 [0x87, 0x10] [] (fun r => st 0xA4 { r with a := 0xF0, x := 0x3C }))
      (fun r => st 0xA4 { r with pc := 0x8002 }) [(0x0010, 0x30)] 3 = true := by decide
theorem test_lax_IL6 :
    ends (start Config.standard 0x8000 [0xA7, 0x10] [(0x0010, 0x80)] (id))
      (fun r => { r with a := 0x80, x := 0x80, pc := 0x8002, p := { r.p with n := true } }) [] 3 = true := by decide
theorem test_dcp_bus_IL28 :
    shows (start Config.standard 0x8000 [0xD3, 0x40] [(0x0040, 0xFF), (0x0041, 0x30), (0x3100, 0x07)] (fun r => { r with a := 0x05, y := 0x01 }))
      [.fetch 0x8000, .read 0x8001, .read 0x0040, .read 0x0041, .read 0x3000, .read 0x3100, .write 0x3100 0x07, .write 0x3100 0x06] = true := by decide
theorem test_dcp_IL28 :
    ends (start Config.standard 0x8000 [0xD3, 0x40] [(0x0040, 0xFF), (0x0041, 0x30), (0x3100, 0x07)] (fun r => { r with a := 0x05, y := 0x01 }))
      (fun r => { r with pc := 0x8002, p := { r.p with c := false, n := true } }) [(0x3100, 0x06)] 8 = true := by decide
theorem test_isc_IL8 :
    ends (start Config.standard 0x8000 [0xE7, 0x10] [(0x0010, 0x0F)] (fun r => st 0x21 { r with a := 0x20 }))
      (fun r => { r with a := 0x10, pc := 0x8002, p := { r.p with c := true, n := false, v := false } }) [(0x0010, 0x10)] 5 = true := by decide
theorem test_las_IL9 :
    ends (start Config.standard 0x8000 [0xBB, 0x00, 0x32] [(0x3200, 0xF0)] (fun r => { r with s := 0x3F, y := 0x00 }))
      (fun r => { r with a := 0x30, x := 0x30, s := 0x30, pc := 0x8003 }) [] 4 = true := by decide
theorem test_anc_IL10 :
    ends (start Config.standard 0x8000 [0x0B, 0x80] [] (fun r => { r with a := 0xFF }))
      (fun r => { r with a := 0x80, pc := 0x8002, p := { r.p with n := true, c := true } }) [] 2 = true := by decide
theorem test_alr_IL11 :
    ends (start Config.standard 0x8000 [0x4B, 0x03] [] (fun r => { r with a := 0xFF }))
      (fun r => { r with a := 0x01, pc := 0x8002, p := { r.p with c := true, n := false, z := false } }) [] 2 = true := by decide
theorem test_arr_IL12 :
    ends (start Config.standard 0x8000 [0x6B, 0xFF] [] (fun r => st 0x20 { r with a := 0x80 }))
      (fun r => { r with a := 0x40, pc := 0x8002, p := { r.p with c := true, v := true, n := false, z := false } }) [] 2 = true := by decide
theorem test_arr_IL13 :
    ends (start Config.standard 0x8000 [0x6B, 0xFF] [] (fun r => st 0x21 { r with a := 0xFF }))
      (fun r => { r with a := 0xFF, pc := 0x8002, p := { r.p with c := true, v := false, n := true } }) [] 2 = true := by decide
theorem test_ane_IL14 :
    ends (start Config.standard 0x8000 [0x8B, 0xFF] [] (fun r => { r with a := 0x00, x := 0xFF }))
      (fun r => { r with a := 0xEE, pc := 0x8002, p := { r.p with n := true } }) [] 2 = true := by decide
theorem test_lxa_IL15 :
    ends (start Config.standard 0x8000 [0xAB, 0x0F] [] (fun r => { r with a := 0x00 }))
      (fun r => { r with a := 0x0E, x := 0x0E, pc := 0x8002 }) [] 2 = true := by decide
theorem test_sbx_IL16 :
    ends (start Config.standard 0x8000 [0xCB, 0x01] [] (fun r => { r with a := 0x0F, x := 0xF3 }))
      (fun r => { r with x := 0x02, pc := 0x8002, p := { r.p with c := true } }) [] 2 = true := by decide
theorem test_sbx_IL17 :
    ends (start Config.standard 0x8000 [0xCB, 0x05] [] (fun r => { r with a := 0x0F, x := 0xF3 }))
      (fun r => { r with x := 0xFE, pc := 0x8002, p := { r.p with c := false, n := true } }) [] 2 = true := by decide
theorem test_usbc_IL18 :
    ends (start Config.standard 0x8000 [0xEB, 0xB0] [] (fun r => st 0x21 { r with a := 0x50 }))
      (fun r => { r with a := 0xA0, pc := 0x8002, p := { r.p with n := true, v := true, c := false } }) [] 2 = true := by decide
theorem test_sha_IL19 :
    ends (start Config.standard 0x8000 [0x9F, 0x00, 0x32] [] (fun r => { r with a := 0xFF, x := 0x0F, y := 0x10 }))
      (fun r => { r with pc := 0x8003 }) [(0x3210, 0x03)] 5 = true := by decide
theorem test_shx_IL20 :
    ends (start Config.standard 0x8000 [0x9E, 0x00, 0x32] [] (fun r => { r with x := 0xFF, y := 0x00 }))
      (fun r => { r with pc := 0x8003 }) [(0x3200, 0x33)] 5 = true := by decide
theorem test_shy_IL21 :
    ends (start Config.standard 0x8000 [0x9C, 0xFF, 0x32] [] (fun r => { r with x := 0x01, y := 0x01 }))
      (fun r => { r with pc := 0x8003 }) [(0x0100, 0x01), (0x3300, 0x00)] 5 = true := by decide
theorem test_tas_IL22 :
    ends (start Config.standard 0x8000 [0x9B, 0x00, 0x32] [] (fun r => { r with a := 0xF0, x := 0x3F, y := 0x04 }))
      (fun r => { r with s := 0x30, pc := 0x8003 }) [(0x3204, 0x30)] 5 = true := by decide
theorem test_nop_bus_IL23 :
    shows (start Config.standard 0x8000 [0x1C, 0xFF, 0x32] [] (fun r => { r with x := 0x01 }))
      [.fetch 0x8000, .read 0x8001, .read 0x8002, .read 0x3200, .read 0x3300] = true := by decide
theorem test_nop_IL23 :
    ends (start Config.standard 0x8000 [0x1C, 0xFF, 0x32] [] (fun r => { r with x := 0x01 }))
      (fun r => { r with pc := 0x8003 }) [] 5 = true := by decide
theorem test_nop_IL26 :
    ends (start Config.standard 0x8000 [0x1A] [] (fun r => st 0xE7 r))
      (fun r => st 0xE7 { r with pc := 0x8001 }) [] 2 = true := by decide

/-! ### Reset, interrupts, JAM, RDY (the steps of TR1, TR2, TR4, TR5, TR8, TR9, TR10) -/

/-- The vectors of the traces: NMI 0xA000, RESET 0x8000, IRQ/BRK 0x9000. -/
def vectors : List (Nat × Byte) := [(0xFFFB, 0xA0), (0xFFFD, 0x80), (0xFFFF, 0x90)]

/-- Power-on with those vectors. -/
def powered (cfg : Config) : State :=
  { State.powerOnWith cfg with mem := vectors.foldl (fun m c => Memory.set m c.1 c.2) [] }

theorem test_reset_TR1 :
    shows (powered Config.standard) [.read 0x0000, .read 0x0100, .read 0x01FF, .read 0x01FE, .read 0xFFFC, .read 0xFFFD] = true := by
  decide
theorem test_reset_regs_TR1 :
    ends (powered Config.standard) (fun r => st 0x24 { r with s := 0xFD, pc := 0x8000 }) [] 6 = true := by decide
theorem test_reset_seven_TR2 :
    shows (powered { Config.standard with resetCycles := 7 })
      [.read 0x0000, .read 0x0000, .read 0x0100, .read 0x01FF, .read 0x01FE, .read 0xFFFC, .read 0xFFFD] = true := by decide
/-- What the interface calls reset is what the power-on reset sequence leaves. -/
theorem test_state_reset : step State.powerOn = .next State.reset := by rfl

/-- The boundary at 0x8001 after the first NOP of TR4 and TR5: I clear, the lines as given. -/
def atBoundary (irq nmi res : Bool) : State :=
  let s := start Config.standard 0x8001 [0xEA] vectors (st 0x20)
  { s with ctl := { s.ctl with inhibit := false, irqLine := irq, nmiPending := nmi, resPending := res } }

theorem test_irq_TR4 :
    shows (atBoundary true false false) [.fetch 0x8001, .read 0x8001, .write 0x01FD 0x80, .write 0x01FC 0x01, .write 0x01FB 0x20,
      .read 0xFFFE, .read 0xFFFF] = true := by decide
theorem test_irq_regs_TR4 :
    ends (atBoundary true false false) (fun r => st 0x24 { r with s := 0xFA, pc := 0x9000 }) [] 7 = true := by decide
theorem test_nmi_first_TR5 :
    shows (atBoundary true true false) [.fetch 0x8001, .read 0x8001, .write 0x01FD 0x80, .write 0x01FC 0x01, .write 0x01FB 0x20,
      .read 0xFFFA, .read 0xFFFB] = true := by decide
theorem test_reset_first :
    shows (atBoundary true true true) [.read 0x8001, .read 0x01FD, .read 0x01FC, .read 0x01FB, .read 0xFFFC, .read 0xFFFD] = true := by
  decide
/-- SEI keeps an IRQ out at the boundary after it (TR8): the step after SEI is the next instruction. -/
theorem test_irq_masked_TR8 :
    let s := start Config.standard 0x8001 [0xEA] vectors (st 0x24)
    ends { s with ctl := { s.ctl with inhibit := false, irqLine := true } } (fun r => { r with pc := 0x8002 }) [] 2 = true := by
  decide

/-- The state of TR9 after the JAM at 0x8000. -/
def jammed : State := { start Config.standard 0x8001 [] vectors (st 0x24) with seq := .jammed }

theorem test_jam_TR9 :
    shows (start Config.standard 0x8000 [0x02] [] id) [.fetch 0x8000, .read 0x8001] = true ∧
    shows jammed [.read 0xFFFF] = true ∧ ends jammed id [] 1 = true := by decide
theorem test_jam_reset_TR9 :
    ends { jammed with ctl := { jammed.ctl with resPending := true } } (fun r => { r with s := 0xFA, pc := 0x8000 }) [] 6 = true := by
  decide

/-- RDY for two ticks on the read of 0x8002, and after the write (TR10). -/
theorem test_rdy_TR10 :
    let wait : Lines := { Lines.idle with rdy := true }
    shows { start Config.standard 0x8000 [0xAD, 0x00, 0x30] [] id with inputs := [Lines.idle, Lines.idle, wait, wait] }
      [.fetch 0x8000, .read 0x8001, .read 0x8002, .read 0x8002, .read 0x8002, .read 0x3000] = true ∧
    shows { start Config.standard 0x8003 [0x8D, 0x01, 0x30] [] id with inputs := [Lines.idle, Lines.idle, Lines.idle, wait] }
      [.fetch 0x8003, .read 0x8004, .read 0x8005, .write 0x3001 0x00] = true := by decide

/-! ### The pin word (CD1 to CD6) and the memory map (MM1 to MM8) -/

theorem test_pins_CD :
    encodePins 0x1234 0xAB true 0 = 0x01AB1234 ∧ encodePins 0x01FD 0x80 false 0 = 0x008001FD ∧
    encodePins 0xFFFC 0x00 true (syncMask ||| irqMask ||| nmiMask ||| rdyMask ||| resMask) = 0x3F00FFFC ∧
    encodePins 0 0 false 0xC0000000 = 0 ∧ setData 0x01AB1234 0x5A = 0x015A1234 ∧
    decodeAddress 0xFFFFFFFF = 0xFFFF ∧ decodeData 0xFFFFFFFF = 0xFF ∧ decodeRw 0x008001FD = false := by decide

/-- The standard machine with the one hook of MM3. -/
def hooked : State := { State.reset with mem := [(0x0000, 0x11)], hooks := [{ low := 0x0800, high := 0x0800, handler := 0 }] }

theorem test_mirror_MM1 :
    let s := State.reset.accessWrite 0x0801 0x77
    s.mem = [(0x0001, 0x77)] ∧ (s.accessRead 0x0001).dbus = 0x77 ∧ (s.accessRead 0x1001).dbus = 0x77 ∧
    (s.accessRead 0x1801).dbus = 0x77 := by decide
theorem test_direct_MM2 : (State.reset.accessWrite 0x2000 0x01).mem = [(0x2000, 0x01)] := by decide
theorem test_hook_MM3 :
    (hooked.accessWrite 0x0800 0x05).mem = [(0x0000, 0x11)] ∧ (hooked.accessRead 0x0000).dbus = 0x11 ∧
    (hooked.accessWrite 0x0800 0x05).hookCalls = [{ handler := 0, addr := 0x0800, isRead := false, data := 0x05 }] := by decide
theorem test_no_mirror_MM8 :
    (State.accessWrite 0x0801 0x44 { State.reset with cfg := withMirrors [] }).mem = [(0x0801, 0x44)] := by decide

/-- The answer of a load, as the array. -/
def loaded (r : Except LoadError State) : Option Memory :=
  match r with
  | .ok s => some s.mem
  | .error _ => none

theorem test_load_MM5_MM6 :
    loaded (State.reset.load (some [1, 2, 3]) 0xFFFE) = none ∧
    loaded (State.reset.load (some [1, 2, 3]) 0xFFFD) = some [(0xFFFD, 1), (0xFFFE, 2), (0xFFFF, 3)] ∧
    loaded (State.reset.load (some [0xAA, 0xBB]) 0x17FF) = some [(0x0000, 0xBB), (0x07FF, 0xAA)] := by decide

/-! ### Hypotheses that can be met: a witness for every statement that has some -/

/-- An instruction's words placed after reset. -/
def here (nbits w : Nat) : State := State.reset.withFetchWord nbits w

/-- A state with a hook on one address. -/
def hookOn (a : Word) : State := { State.reset with hooks := [{ low := a, high := a, handler := 0 }] }

/-- Everything the instruction statements assume of a state, met together. -/
structure Met (i : Instr) (m : Mode) (w : Word) (s : State) : Prop where
  fetches : FetchesNext s
  holds : HoldsAtPc i s
  waits : s.NoWaits
  pointers : PointersPlain m w s
  operand : s.Plain (effectiveAddress m w s)
  array : Memory.wf s.mem = true
  inputs : ∀ l ∈ s.inputs, l.res = false ∧ l.nmi = false

theorem met {nbits w : Nat} {i : Instr} (m : Mode) (op : Word) (h : ∃ rest, decode (bytesAtPc (here nbits w)) = .ok (i, rest))
    (ha : Memory.wf (here nbits w).mem = true) : Met i m op (here nbits w) :=
  { fetches := ⟨rfl, rfl, nofun, .inl rfl⟩, holds := ⟨h, fun _ _ => rfl⟩, waits := nofun, pointers := fun _ _ => rfl,
    operand := rfl, array := ha, inputs := nofun }

theorem hookOn_not_plain (a : Word) : ¬ (hookOn a).Plain a := by
  simp [State.Plain, State.hookAt, hookOn, HookRange.covers]

theorem witness_StepRunsDecoded :
    Met (.ldaIndY 0xFF) .indirectY 0xFF (here 16 0xFFB1) ∧ Met (.jsr 0x1234) .absolute 0x1234 (here 24 0x123420) ∧
    FetchesNext (atBoundary false false false) ∧
    FetchesNext { atBoundary true false false with regs := st 0x24 (atBoundary true false false).regs } :=
  ⟨met _ _ ⟨_, rfl⟩ rfl, met _ _ ⟨_, rfl⟩ rfl, ⟨rfl, rfl, nofun, .inr ⟨rfl, rfl, .inl rfl⟩⟩,
    ⟨rfl, rfl, nofun, .inr ⟨rfl, rfl, .inr rfl⟩⟩⟩

theorem witness_LengthFromOpcode :
    (descriptor 0x4C).length ≤ 1 + [(0x34 : Byte), 0x12].length ∧ 1 + [(0x34 : Byte)].length < (descriptor 0x4C).length := by decide

theorem witness_EncodeOfDecode : decode [0xA9, 0x80, 0x00] = .ok (.ldaImm 0x80, [0x00]) := rfl

theorem witness_ResetSequence :
    let s := atBoundary true true true
    let j := { jammed with ctl := { jammed.ctl with resPending := true } }
    (s.t = 0 ∧ s.lastBus ≠ none ∧ s.ctl.resPending = true ∧ s.seq = .instr ∧ s.ctl.inhibit = false ∧ s.Plain 0xFFFC ∧
      s.Plain 0xFFFD) ∧ s.NoWaits ∧ (∀ l ∈ s.inputs, l.res = false ∧ l.nmi = false) ∧
    (j.t = 0 ∧ j.lastBus ≠ none ∧ j.ctl.resPending = true ∧ j.seq = .jammed) :=
  ⟨⟨rfl, nofun, rfl, rfl, rfl, rfl, rfl⟩, nofun, nofun, rfl, nofun, rfl, rfl⟩

theorem witness_InterruptEntry :
    let n := atBoundary true true false
    let i := atBoundary true false false
    (n.t = 0 ∧ n.seq = .instr ∧ n.lastBus ≠ none ∧ n.ctl.inhibit = false ∧ n.ctl.resPending = false ∧ n.ctl.nmiPending = true) ∧
    n.NoWaits ∧ (∀ l ∈ n.inputs, l.nmi = false) ∧
    (i.t = 0 ∧ i.seq = .instr ∧ i.lastBus ≠ none ∧ i.ctl.inhibit = false ∧ i.ctl.resPending = false ∧
      i.ctl.nmiPending = false ∧ i.ctl.irqLine = true ∧ i.regs.p.i = false) ∧ i.NoWaits :=
  ⟨⟨rfl, rfl, nofun, rfl, rfl, rfl⟩, nofun, nofun, ⟨rfl, rfl, nofun, rfl, rfl, rfl, rfl, rfl⟩, nofun⟩

theorem witness_JammedTick :
    let s := { jammed with ctl := { jammed.ctl with nmiPending := true } }
    s.t = 0 ∧ s.seq = .jammed ∧ s.lastBus ≠ none ∧ s.ctl.resPending = false ∧ s.ctl.nmiPending = true ∧ s.NoWaits :=
  ⟨rfl, rfl, nofun, rfl, rfl, nofun⟩

theorem witness_PendingIsKept :
    (∃ t, step (atBoundary true true false) = .next t ∧ t.ctl.nmiPending = false) ∧
    (∃ t, step (atBoundary true true true) = .next t ∧ t.ctl.resPending = false) ∧
    (atBoundary true true true).ctl.nmiPending = true := ⟨⟨_, rfl, rfl⟩, ⟨_, rfl, rfl⟩, rfl⟩

/-- Between sequences, after the first tick, with a next state: a boundary of an instruction, of a jammed core. -/
theorem witness_between_sequences :
    (∃ t, step (here 16 0x80A9) = .next t ∧ 0 < t.trace.length - (here 16 0x80A9).trace.length) ∧ (here 16 0x80A9).t = 0 ∧
    (here 16 0x80A9).seq = .instr ∧ (here 16 0x80A9).lastBus ≠ none ∧ (here 16 0x80A9).NoWaits ∧
    (∃ t, step jammed = .next t) ∧ jammed.t = 0 ∧ jammed.seq = .jammed ∧ jammed.lastBus ≠ none :=
  ⟨⟨_, rfl, by decide⟩, rfl, rfl, nofun, nofun, ⟨_, rfl⟩, rfl, rfl, nofun⟩

theorem witness_SampledOncePerCycle :
    (here 16 0x80A9).t = 0 ∧ (here 16 0x80A9).lastBus ≠ none ∧ ∃ t, step (here 16 0x80A9) = .next t := ⟨rfl, nofun, _, rfl⟩

theorem witness_InvKeptByStep : State.reset.Inv ∧ jammed.Inv ∧ (∃ t, step State.reset = .next t) ∧ ∃ t, step jammed = .next t :=
  ⟨⟨by decide, by decide, rfl, rfl, .inl rfl⟩, ⟨by decide, by decide, rfl, rfl, .inr rfl⟩, ⟨_, rfl⟩, ⟨_, rfl⟩⟩

theorem witness_PowerOnReset : (powered Config.standard).Plain 0xFFFC ∧ (powered Config.standard).Plain 0xFFFD := ⟨rfl, rfl⟩

theorem witness_TicksRefineStep :
    let s := here 16 0x10A5
    s.t = 0 ∧ s.seq = .instr ∧ s.lastBus ≠ none ∧ ∃ t, step s = .next t ∧ t.trace.length - s.trace.length = 3 :=
  ⟨rfl, rfl, nofun, _, rfl, by decide⟩

theorem witness_StepResumesSequence :
    let s := here 16 0x10A5
    s.t = 0 ∧ s.seq = .instr ∧ s.lastBus ≠ none ∧
      ∃ t, step s = .next t ∧ 0 < t.trace.length - s.trace.length ∧ 2 < t.trace.length - s.trace.length :=
  ⟨rfl, rfl, nofun, _, rfl, by decide, by decide⟩

/-- A read that crosses a page and one that does not; a branch taken into its page, into another, and not taken. -/
theorem witness_CycleCountLaw :
    (let s := { here 24 0x30FFBD with regs := { (here 24 0x30FFBD).regs with x := 1 } };
      Met (.ldaAbsX 0x30FF) .absoluteX 0x30FF s ∧ pageCrossed .absoluteX (operandOf (.ldaAbsX 0x30FF)) s = true ∧
      (Instr.ldaAbsX 0x30FF).descriptor.penalty = true ∧ (Instr.ldaAbsX 0x30FF).descriptor.access ≠ .branch) ∧
    pageCrossed .absoluteX (operandOf (.ldaAbsX 0x3000)) (here 24 0x3000BD) = false ∧
    Met (.ldaAbsX 0x3000) .absoluteX 0x3000 (here 24 0x3000BD) ∧
    (Met (.bpl 0x02) .relative 0x02 (here 16 0x0210) ∧ branchTaken .BPL (here 16 0x0210).regs.p) ∧
    (Met (.bpl 0x80) .relative 0x80 (here 16 0x8010) ∧ branchTaken .BPL (here 16 0x8010).regs.p) ∧
    (Met (.bmi 0x02) .relative 0x02 (here 16 0x0230) ∧ ¬ branchTaken .BMI (here 16 0x0230).regs.p) ∧
    (Instr.bpl 0x02).descriptor.access = .branch :=
  ⟨⟨⟨⟨rfl, rfl, nofun, .inl rfl⟩, ⟨⟨_, rfl⟩, fun _ _ => rfl⟩, nofun, fun _ _ => rfl, rfl, rfl, nofun⟩, by decide, by decide,
    by decide⟩, by decide, met _ _ ⟨_, rfl⟩ rfl, ⟨met _ _ ⟨_, rfl⟩ rfl, rfl⟩, ⟨met _ _ ⟨_, rfl⟩ rfl, rfl⟩,
    ⟨met _ _ ⟨_, rfl⟩ rfl, fun h => absurd (show false = true from h) (by decide)⟩, by decide⟩

theorem witness_SyncLaw :
    let s := here 16 0x80A9
    s.t = 0 ∧ s.lastBus ≠ none ∧ s.NoWaits ∧ (∃ t, step s = .next t) ∧ s.boundary.1 = .instr ∧ jammed.boundary.1 = .jammed ∧
    (atBoundary true true true).boundary.1 = .reset := ⟨rfl, nofun, nofun, ⟨_, rfl⟩, rfl, rfl, rfl⟩

/-- LDA $0800 with a hook on 0x0800: its read cycle reaches the hook. -/
theorem witness_EveryCycleReachesHooks :
    let s := State.withFetchWord (hookOn 0x0800) 24 0x0800AD
    s.t = 0 ∧ (s.hookAt 0x0800).isSome = true ∧ ∃ t, step s = .next t ∧ t.hookCalls.length = 1 := ⟨rfl, by decide, _, rfl, rfl⟩

/-- In the middle of STA $10: after its operand fetch is emitted (a read outstanding), and after its write is emitted. -/
def midRead : State := systemTicks 1 (here 16 0x1085).openSequence

/-- One tick later. -/
def midWrite : State := systemTicks 2 (here 16 0x1085).openSequence

theorem midRead_outstanding : midRead.t = 2 ∧ Outstanding midRead := ⟨rfl, fun _ => ⟨_, _, rfl, rfl, rfl⟩⟩

theorem midWrite_outstanding : midWrite.t = 3 ∧ Outstanding midWrite := ⟨rfl, fun _ => ⟨_, _, rfl, rfl, rfl⟩⟩

theorem witness_RdyWaits :
    (∃ c, midRead.t ≠ 0 ∧ midRead.lastBus = some c ∧ c.read = true) ∧ (∃ c, midWrite.t ≠ 0 ∧ midWrite.lastBus = some c ∧ c.read = false) ∧
    ({ Lines.idle with rdy := true } : Lines).rdy = true := ⟨⟨_, by decide, rfl, rfl⟩, ⟨_, by decide, rfl, rfl⟩, rfl⟩

theorem witness_DataIgnoredAfterWrite :
    midWrite.t ≠ 0 ∧ Outstanding midWrite ∧ ∃ c, midWrite.lastBus = some c ∧ c.read = false :=
  ⟨by decide, midWrite_outstanding.2, _, rfl, rfl⟩

theorem witness_OutstandingKept : Outstanding midRead ∧ Outstanding midWrite ∧ midRead.t ≠ 0 :=
  ⟨midRead_outstanding.2, midWrite_outstanding.2, by decide⟩

theorem witness_SnapshotAtFetch :
    State.reset.t = 0 ∧ State.reset.boundary.1 = .instr ∧ (atBoundary true true false).t = 0 ∧
    (atBoundary true true false).boundary.1 = .nmi ∧ (atBoundary true false false).boundary.1 = .irq := ⟨rfl, rfl, rfl, rfl, rfl⟩

theorem witness_MirrorCoherence :
    Config.standard.wellFormed = true ∧ Memory.wf State.reset.mem = true ∧
    ∃ m ∈ State.reset.cfg.mirrors, m.low ≤ (0x0000 : Word) ∧ (0x0000 : Word) ≤ m.high ∧ m.low ≤ (0x1800 : Word) ∧
      (0x1800 : Word) ≤ m.high ∧ (0x1FFF : Word) ≤ m.high ∧
      ((0x0000 : Word).toNat - m.low.toNat) % m.size = ((0x1800 : Word).toNat - m.low.toNat) % m.size ∧
      ((0x07FF : Word).toNat - m.low.toNat) % m.size = ((0x1FFF : Word).toNat - m.low.toNat) % m.size ∧
      State.reset.Plain 0x0000 ∧ State.reset.Plain 0x1800 :=
  ⟨by decide, by decide, _, List.mem_cons_self .., by decide, by decide, by decide, by decide, by decide, by decide, by decide, rfl, rfl⟩

theorem witness_DefaultMap :
    State.reset.cfg = Config.standard ∧ (0x1FFF : Word).toNat < 0x2000 ∧ 0x2000 ≤ (0x2000 : Word).toNat := ⟨rfl, by decide, by decide⟩

theorem witness_Resolution :
    hooked.hookAt 0x0800 = some { low := 0x0800, high := 0x0800, handler := 0 } ∧ hooked.hookAt 0x07FF = none ∧
    hooked.hookAt 0x0801 = none ∧ mirrorsDisjoint Config.standard.mirrors = true ∧
    (∀ m ∈ Config.standard.mirrors, m.wellFormed = true) ∧
    (∀ m ∈ Config.standard.mirrors, ¬ (m.low ≤ (0x2000 : Word) ∧ (0x2000 : Word) ≤ m.high)) ∧
    ∃ m ∈ Config.standard.mirrors, m.low ≤ (0x1FFF : Word) ∧ (0x1FFF : Word) ≤ m.high := by decide

theorem witness_HookAnswers : hooked.hookAt 0x0800 = some { low := 0x0800, high := 0x0800, handler := 0 } := rfl

/-- A range next to a registered one, one that shares its last address, and an empty one (MM4). -/
theorem witness_RegisterHook :
    let s := { State.reset with hooks := [{ low := 0x4000, high := 0x4007, handler := 0 }] }
    hooksWellFormed s.hooks = true ∧
    ((0x4008 : Word) ≤ 0x4010 ∧ ∀ k ∈ s.hooks, ¬ ((0x4008 : Word) ≤ k.high ∧ k.low ≤ (0x4010 : Word))) ∧
    ((0x4007 : Word) ≤ 0x4010 ∧ ∃ k ∈ s.hooks, (0x4007 : Word) ≤ k.high ∧ k.low ≤ (0x4010 : Word)) ∧
    (0x4010 : Word) < 0x4011 := by decide

/-- One byte too many, exactly enough, and two bytes with one array byte behind them (0x07FF and 0x0FFF). -/
theorem witness_ProgramLoad :
    Memory.wf State.reset.mem = true ∧ 65536 < (0xFFFE : Word).toNat + [(1 : Byte), 2, 3].length ∧
    (0xFFFD : Word).toNat + [(1 : Byte), 2, 3].length ≤ 65536 ∧
    (∀ j, 2 < j → j < [(1 : Byte), 2, 3].length →
      State.reset.Apart ((0xFFFD : Word) + BitVec.ofNat 16 j) ((0xFFFD : Word) + BitVec.ofNat 16 2)) ∧
    State.reset.Apart 0x2000 0xFFFD ∧ ¬ State.reset.Apart 0x07FF 0x0FFF := by
  refine ⟨by decide, by decide, by decide, fun j h1 h2 => ?_, by simp only [State.Apart]; decide, by simp only [State.Apart]; decide⟩
  exact absurd h2 (by simp only [List.length_cons, List.length_nil]; omega)

theorem witness_BackingArray : Memory.wf [(0x0000, 0x11), (0xFFFF, 0x01)] = true := by decide

theorem witness_DecimalMeaning : (99 : Nat) < 100 ∧ (0 : Nat) < 100 := by decide

/-- Every mode occurs among the forms whose statement speaks of it. -/
def hasMode (fs : List Form) (m : Mode) : Bool := fs.any (fun f => f.mode == m)

theorem witness_Loads :
    Met (.ldaImm 0x80) .immediate 0x80 (here 16 0x80A9) ∧ Met (.ldxZpY 0xFF) .zeroPageY 0xFF (here 16 0xFFB6) ∧
    Met (.ldyAbsX 0xFFFF) .absoluteX 0xFFFF (here 24 0xFFFFBC) ∧
    (hasMode ldaForms .immediate && hasMode ldaForms .indirectY && hasMode ldaForms .indirectX) = true :=
  ⟨met _ _ ⟨_, rfl⟩ rfl, met _ _ ⟨_, rfl⟩ rfl, met _ _ ⟨_, rfl⟩ rfl, by decide⟩

theorem witness_StoresOfRegisters :
    Met (.staIndY 0xFF) .indirectY 0xFF (here 16 0xFF91) ∧ Met (.saxZp 0x10) .zeroPage 0x10 (here 16 0x1087) ∧
    ¬ (hookOn 0x0010).Plain (effectiveAddress .zeroPage 0x0010 (hookOn 0x0010)) :=
  ⟨met _ _ ⟨_, rfl⟩ rfl, met _ _ ⟨_, rfl⟩ rfl, hookOn_not_plain _⟩

theorem witness_Transfers : Met .tax .implied 0 (here 8 0xAA) ∧ Met .txs .implied 0 (here 8 0x9A) :=
  ⟨met _ _ ⟨_, rfl⟩ rfl, met _ _ ⟨_, rfl⟩ rfl⟩

/-- Also with S at the bottom of the page, and with a hook on the stack byte. -/
theorem witness_Pushes :
    Met .pha .implied 0 (here 8 0x48) ∧ Met .php .implied 0 (here 8 0x08) ∧ (here 8 0x48).Plain (0x0100 ||| zext 0x00) ∧
    ¬ (hookOn 0x01FD).Plain (0x0100 ||| zext (hookOn 0x01FD).regs.s) :=
  ⟨met _ _ ⟨_, rfl⟩ rfl, met _ _ ⟨_, rfl⟩ rfl, rfl, hookOn_not_plain _⟩

theorem witness_Pulls :
    Met .pla .implied 0 (here 8 0x68) ∧ Met .plp .implied 0 (here 8 0x28) ∧ (here 8 0x68).Plain (0x0100 ||| zext (0xFF + 1)) :=
  ⟨met _ _ ⟨_, rfl⟩ rfl, met _ _ ⟨_, rfl⟩ rfl, rfl⟩

/-- In binary, and in decimal mode with D set. -/
theorem witness_AddSubtract :
    Met (.adcImm 0x50) .immediate 0x50 (here 16 0x5069) ∧ Met (.sbcIndX 0xFF) .indirectX 0xFF (here 16 0xFFE1) ∧
    Met (.usbcImm 0xB0) .immediate 0xB0 (here 16 0xB0EB) ∧
    (let s := start decimal 0x8000 [0x69, 0x01] [] (st 0x28);
      s.cfg.decimalMode = true ∧ s.regs.p.d = true) :=
  ⟨met _ _ ⟨_, rfl⟩ rfl, met _ _ ⟨_, rfl⟩ rfl, met _ _ ⟨_, rfl⟩ rfl, rfl, rfl⟩

theorem witness_Logic :
    Met (.andImm 0x3C) .immediate 0x3C (here 16 0x3C29) ∧ Met (.oraAbsY 0xFFFF) .absoluteY 0xFFFF (here 24 0xFFFF19) ∧
    Met (.eorZpX 0xFF) .zeroPageX 0xFF (here 16 0xFF55) :=
  ⟨met _ _ ⟨_, rfl⟩ rfl, met _ _ ⟨_, rfl⟩ rfl, met _ _ ⟨_, rfl⟩ rfl⟩

theorem witness_Compares :
    Met (.cmpImm 0x40) .immediate 0x40 (here 16 0x40C9) ∧ Met (.bitAbs 0x3000) .absolute 0x3000 (here 24 0x30002C) :=
  ⟨met _ _ ⟨_, rfl⟩ rfl, met _ _ ⟨_, rfl⟩ rfl⟩

theorem witness_IncrementDecrement :
    Met (.incAbsX 0x30FF) .absoluteX 0x30FF (here 24 0x30FFFE) ∧ Met .dey .implied 0 (here 8 0x88) ∧
    ¬ (hookOn 0x0010).Plain (effectiveAddress .zeroPage 0x0010 (hookOn 0x0010)) :=
  ⟨met _ _ ⟨_, rfl⟩ rfl, met _ _ ⟨_, rfl⟩ rfl, hookOn_not_plain _⟩

theorem witness_ShiftsAndRotates :
    Met (.aslZp 0x10) .zeroPage 0x10 (here 16 0x1006) ∧ Met .rorAcc .accumulator 0 (here 8 0x6A) ∧
    ¬ (hookOn 0x0010).Plain (effectiveAddress .zeroPage 0x0010 (hookOn 0x0010)) :=
  ⟨met _ _ ⟨_, rfl⟩ rfl, met _ _ ⟨_, rfl⟩ rfl, hookOn_not_plain _⟩

theorem witness_Jumps :
    Met (.jmpAbs 0x1234) .absolute 0x1234 (here 24 0x12344C) ∧ Met (.jmpInd 0x30FF) .indirect 0x30FF (here 24 0x30FF6C) ∧
    (here 24 0x30FF6C).Plain (pair 0x30 (0xFF + 1)) := ⟨met _ _ ⟨_, rfl⟩ rfl, met _ _ ⟨_, rfl⟩ rfl, rfl⟩

theorem witness_Subroutines :
    Met (.jsr 0x9000) .absolute 0x9000 (here 24 0x900020) ∧ Met .rts .implied 0 (here 8 0x60) ∧
    (here 24 0x900020).Apart 0x2000 0x01FD ∧ (here 8 0x60).Plain (0x0100 ||| zext (0xFE + 2)) := by
  refine ⟨met _ _ ⟨_, rfl⟩ rfl, met _ _ ⟨_, rfl⟩ rfl, ?_, rfl⟩
  show mirrorIndex _ _ ≠ mirrorIndex _ _
  decide

theorem witness_InterruptReturn :
    Met .rti .implied 0 (here 8 0x40) ∧ (here 8 0x40).Plain (0x0100 ||| zext (0xFD + 3)) := ⟨met _ _ ⟨_, rfl⟩ rfl, rfl⟩

theorem witness_SoftwareInterrupt :
    Met .brk .implied 0 (here 8 0x00) ∧ (here 8 0x00).Plain 0xFFFE ∧ (here 8 0x00).Plain 0xFFFF :=
  ⟨met _ _ ⟨_, rfl⟩ rfl, rfl, rfl⟩

theorem witness_Branches :
    Met (.bpl 0x7F) .relative 0x7F (here 16 0x7F10) ∧ (here 16 0x7F10).regs.p.n = false ∧
    Met (.bmi 0x80) .relative 0x80 (here 16 0x8030) ∧ ¬ (here 16 0x8030).regs.p.n = true :=
  ⟨met _ _ ⟨_, rfl⟩ rfl, rfl, met _ _ ⟨_, rfl⟩ rfl, by decide⟩

theorem witness_FlagsAndNop :
    Met .clc .implied 0 (here 8 0x18) ∧ Met .nop .implied 0 (here 8 0xEA) ∧
    Met (.nopAbsX1C 0x30FF) .absoluteX 0x30FF (here 24 0x30FF1C) ∧
    (hasMode nopReadForms .immediate && hasMode nopReadForms .absoluteX && hasMode nopIdleForms .implied) = true :=
  ⟨met _ _ ⟨_, rfl⟩ rfl, met _ _ ⟨_, rfl⟩ rfl, met _ _ ⟨_, rfl⟩ rfl, by decide⟩

theorem witness_CombinedRmw :
    Met (.sloIndX 0xFF) .indirectX 0xFF (here 16 0xFF03) ∧ Met (.iscAbsY 0x30FF) .absoluteY 0x30FF (here 24 0x30FFFB) ∧
    ¬ (hookOn 0x0010).Plain (effectiveAddress .zeroPage 0x0010 (hookOn 0x0010)) :=
  ⟨met _ _ ⟨_, rfl⟩ rfl, met _ _ ⟨_, rfl⟩ rfl, hookOn_not_plain _⟩

theorem witness_CombinedReads :
    Met (.laxIndY 0xFF) .indirectY 0xFF (here 16 0xFFB3) ∧ Met (.arrImm 0xFF) .immediate 0xFF (here 16 0xFF6B) ∧
    Met (.lasAbsY 0x3200) .absoluteY 0x3200 (here 24 0x3200BB) :=
  ⟨met _ _ ⟨_, rfl⟩ rfl, met _ _ ⟨_, rfl⟩ rfl, met _ _ ⟨_, rfl⟩ rfl⟩

theorem witness_HighByteStores :
    Met (.shaIndY 0xFF) .indirectY 0xFF (here 16 0xFF93) ∧ Met (.tasAbsY 0x3200) .absoluteY 0x3200 (here 24 0x32009B) :=
  ⟨met _ _ ⟨_, rfl⟩ rfl, met _ _ ⟨_, rfl⟩ rfl⟩

theorem witness_JamHalts : Met .jam02 .implied 0 (here 8 0x02) := met _ _ ⟨_, rfl⟩ rfl



theorem witness_FlagWriters :
    (∃ t, exec (.staZp 0x10) State.reset = .next t) ∧
    (Instr.staZp 0x10).descriptor.op ∉ ([.SEI, .CLI, .PLP, .RTI, .BRK] : List Operation) := ⟨⟨_, rfl⟩, by decide⟩

theorem witness_StackPointerWriters :
    (∃ t, exec (.ldaImm 0x10) State.reset = .next t) ∧
    (Instr.ldaImm 0x10).descriptor.op ∉ ([.TXS, .LAS, .TAS, .PHA, .PHP, .PLA, .PLP, .JSR, .RTS, .RTI, .BRK] : List Operation) ∧
    (Instr.ldaImm 0x10).descriptor.op ≠ .JAM ∧ (Instr.ldaImm 0x10).descriptor.op ≠ .BRK :=
  ⟨⟨_, rfl⟩, by decide, by decide, by decide⟩

end Sys2Proof.Tests
end

section
/-!
The status byte (R39): the number PackP answers, each of its bits, and the two round trips of PackP and UnpackP.
-/

namespace Sys2Proof.Machine

/-- PackP appends one bit at a time, bit 7 first, so the library's lemmas about `BitVec.concat` read its number and its bits. -/
theorem packP_eq_concat (b : Bool) (p : Status) :
    packP b p = (((((((BitVec.ofBool p.n).concat p.v).concat true).concat b).concat p.d).concat p.i).concat p.z).concat p.c :=
  rfl

theorem packP_toNat (b : Bool) (p : Status) :
    (packP b p).toNat = 128 * p.n.toNat + 64 * p.v.toNat + 32 + 16 * b.toNat + 8 * p.d.toNat + 4 * p.i.toNat +
      2 * p.z.toNat + p.c.toNat := by
  simp only [packP_eq_concat, BitVec.toNat_concat, BitVec.toNat_ofBool, Bool.toNat_true]
  omega

/-! ### The bits of PackP(b): 7, 6 and 3 to 0 are the fields of P, 5 is 1 and 4 is b (R36 to R39) -/

section packPBits
variable (b : Bool) (p : Status)

@[simp] theorem packP_bit0 : (packP b p)[0] = p.c := by simp [packP_eq_concat]
@[simp] theorem packP_bit1 : (packP b p)[1] = p.z := by simp [packP_eq_concat]
@[simp] theorem packP_bit2 : (packP b p)[2] = p.i := by simp [packP_eq_concat]
@[simp] theorem packP_bit3 : (packP b p)[3] = p.d := by simp [packP_eq_concat]
@[simp] theorem packP_bit4 : (packP b p)[4] = b := by simp [packP_eq_concat]
@[simp] theorem packP_bit5 : (packP b p)[5] = true := by simp [packP_eq_concat]
@[simp] theorem packP_bit6 : (packP b p)[6] = p.v := by simp [packP_eq_concat]
@[simp] theorem packP_bit7 : (packP b p)[7] = p.n := by simp [packP_eq_concat]

end packPBits

theorem unpackP_packP (b : Bool) (p : Status) : unpackP (packP b p) = p := by
  simp [unpackP]

/-- UnpackP reads bits 7, 6, 3, 2, 1 and 0, the mask 0xCF; PackP fills in the other two (R37, R38). -/
theorem packP_unpackP (b : Bool) (v : Byte) :
    packP b (unpackP v) = (v &&& 0xCF) ||| 0x20 ||| (if b = true then 0x10 else 0) := by
  refine BitVec.eq_of_getElem_eq fun k hk => ?_
  cases b <;> interval_cases k <;> simp [unpackP]

/-- Settles O35: the number and the bits of PackP, then the two round trips. -/
theorem statusByte : Obligations.StatusByte :=
  ⟨fun b p => ⟨packP_toNat b p, unpackP_packP b p⟩, packP_unpackP⟩

end Sys2Proof.Machine
end

section
/-!
The pin word (R81 to R86): decode_address and decode_data distribute over `|||` and `&&&`, so encode and set_data are decoded one
field at a time.
-/

namespace Sys2Proof.Machine

/-! ### Decoding a combination of fields -/

theorem decodeAddress_or (p q : PinWord) : decodeAddress (p ||| q) = decodeAddress p ||| decodeAddress q :=
  BitVec.extractLsb'_or

theorem decodeAddress_and (p q : PinWord) : decodeAddress (p &&& q) = decodeAddress p &&& decodeAddress q :=
  BitVec.extractLsb'_and

theorem decodeData_or (p q : PinWord) : decodeData (p ||| q) = decodeData p ||| decodeData q :=
  BitVec.extractLsb'_or

theorem decodeData_and (p q : PinWord) : decodeData (p &&& q) = decodeData p &&& decodeData q :=
  BitVec.extractLsb'_and

/-! ### Each field alone -/

@[simp] theorem decodeAddress_addressField (a : Word) : decodeAddress (a.setWidth 32) = a := by
  refine BitVec.eq_of_getElem_eq fun k hk => ?_
  have hk32 : k < 32 := by omega
  simp [decodeAddress, hk32, BitVec.getLsbD_eq_getElem hk]

@[simp] theorem decodeData_addressField (a : Word) : decodeData (a.setWidth 32) = 0 := by
  refine BitVec.eq_of_getElem_eq fun k hk => ?_
  simp [decodeData]

/-- A field whose lowest bit is bit 16 or a higher one leaves the address field 0. -/
theorem decodeAddress_shifted (p : PinWord) {n : Nat} (hn : 16 ≤ n) : decodeAddress (p <<< n) = 0 := by
  refine BitVec.eq_of_getElem_eq fun k hk => ?_
  have hkn : k < n := by omega
  simp [decodeAddress, hkn]

@[simp] theorem decodeData_dataField (d : Byte) : decodeData (d.setWidth 32 <<< 16) = d := by
  refine BitVec.eq_of_getElem_eq fun k hk => ?_
  have hk32 : 16 + k < 32 := by omega
  simp [decodeData, hk32, BitVec.getLsbD_eq_getElem hk]

@[simp] theorem decodeData_rwField (p : PinWord) : decodeData (p <<< 24) = 0 := by
  refine BitVec.eq_of_getElem_eq fun k hk => ?_
  have hkn : 16 + k < 24 := by omega
  simp [decodeData, hkn]

/-- The control lines that encode lets through lie in bits 25 to 29. -/
theorem decodeAddress_controlMask : decodeAddress (syncMask ||| irqMask ||| nmiMask ||| rdyMask ||| resMask) = 0 := by
  decide

theorem decodeData_controlMask : decodeData (syncMask ||| irqMask ||| nmiMask ||| rdyMask ||| resMask) = 0 := by
  decide

/-! ### The round trips -/

theorem decodeAddress_encodePins (address : Word) (data : Byte) (rw : Bool) (lines : PinWord) :
    decodeAddress (encodePins address data rw lines) = address := by
  rw [encodePins, decodeAddress_or, decodeAddress_or, decodeAddress_or, decodeAddress_and, decodeAddress_controlMask,
    decodeAddress_addressField, decodeAddress_shifted _ (by decide), decodeAddress_shifted _ (by decide)]
  simp

theorem decodeData_encodePins (address : Word) (data : Byte) (rw : Bool) (lines : PinWord) :
    decodeData (encodePins address data rw lines) = data := by
  rw [encodePins, decodeData_or, decodeData_or, decodeData_or, decodeData_and, decodeData_controlMask]
  simp

theorem decodeAddress_setData (p : PinWord) (d : Byte) : decodeAddress (setData p d) = decodeAddress p := by
  have hmask : decodeAddress (~~~dataMask) = BitVec.allOnes 16 := by decide
  rw [setData, decodeAddress_or, decodeAddress_and, hmask, decodeAddress_shifted _ (by decide),
    BitVec.and_allOnes]
  simp

theorem decodeData_setData (p : PinWord) (d : Byte) : decodeData (setData p d) = d := by
  have hmask : decodeData (~~~dataMask) = 0 := by decide
  rw [setData, decodeData_or, decodeData_and, hmask]
  simp

/-- Settles O22: the fields of encode, then those of set_data. -/
theorem pinWordRoundTrip : Obligations.PinWordRoundTrip :=
  ⟨fun address data rw lines => ⟨decodeAddress_encodePins address data rw lines, decodeData_encodePins address data rw lines⟩,
    fun p d => ⟨decodeData_setData p d, decodeAddress_setData p d⟩⟩

end Sys2Proof.Machine
end

section
/-!
The memory map (R100 to R107, R115): which index an address resolves to, what one access does with a hook and without one, and what a
program load leaves in the array.
-/

namespace Sys2Proof.Machine

/-! ### The index of an address (R101, R102) -/

theorem covers_iff (m : MirrorRegion) (a : Word) : MirrorRegion.covers m a = true ↔ m.low ≤ a ∧ a ≤ m.high := by
  simp [MirrorRegion.covers]

/-- Two regions that cover one address overlap. -/
theorem overlaps_of_covers {m n : MirrorRegion} {a : Word} (hm : MirrorRegion.covers m a = true)
    (hn : MirrorRegion.covers n a = true) : MirrorRegion.overlaps m n = true := by
  rw [covers_iff] at hm hn
  simp [MirrorRegion.overlaps, BitVec.le_trans hm.1 hn.2, BitVec.le_trans hn.1 hm.2]

/-- Among regions of which no two overlap, the one that covers an address is the one the search finds. -/
theorem find?_covers_of_mem {mirrors : List MirrorRegion} {m : MirrorRegion} {a : Word} (hd : mirrorsDisjoint mirrors = true)
    (hm : m ∈ mirrors) (ha : MirrorRegion.covers m a = true) :
    mirrors.find? (fun m => MirrorRegion.covers m a) = some m := by
  induction mirrors with
  | nil => cases hm
  | cons n ms ih =>
    simp only [mirrorsDisjoint, Bool.and_eq_true, List.all_eq_true, Bool.not_eq_true'] at hd
    obtain ⟨hn, hms⟩ := hd
    cases hm with
    | head => exact List.find?_cons_of_pos ha
    | tail _ hmem =>
      have hna : MirrorRegion.covers n a = false := Bool.eq_false_iff.mpr fun hna =>
        Bool.false_ne_true ((hn m hmem).symm.trans (overlaps_of_covers hna ha))
      rw [List.find?_cons, hna]
      exact ih hms hmem

theorem mirrorIndex_of_mem {mirrors : List MirrorRegion} {m : MirrorRegion} {a : Word} (hd : mirrorsDisjoint mirrors = true)
    (hm : m ∈ mirrors) (ha : m.low ≤ a ∧ a ≤ m.high) :
    mirrorIndex mirrors a = BitVec.ofNat 16 (m.base.toNat + (a.toNat - m.low.toNat) % m.size) := by
  rw [mirrorIndex, find?_covers_of_mem hd hm ((covers_iff m a).mpr ha)]

theorem mirrorIndex_uncovered {mirrors : List MirrorRegion} {a : Word} (h : ∀ m ∈ mirrors, ¬ (m.low ≤ a ∧ a ≤ m.high)) :
    mirrorIndex mirrors a = a := by
  have hnone : mirrors.find? (fun m => MirrorRegion.covers m a) = none :=
    List.find?_eq_none.mpr fun m hm hc => h m hm ((covers_iff m a).mp hc)
  rw [mirrorIndex, hnone]

/-- The index of a legal region lies in the array (R102), so that taking it as a word changes nothing. -/
theorem mirrorIndex_toNat_of_mem {mirrors : List MirrorRegion} {m : MirrorRegion} {a : Word} (hd : mirrorsDisjoint mirrors = true)
    (hw : m.wellFormed = true) (hm : m ∈ mirrors) (ha : m.low ≤ a ∧ a ≤ m.high) :
    (mirrorIndex mirrors a).toNat = m.base.toNat + (a.toNat - m.low.toNat) % m.size := by
  simp only [MirrorRegion.wellFormed, Bool.and_eq_true, decide_eq_true_eq] at hw
  obtain ⟨⟨_, hsize⟩, hbase⟩ := hw
  have hmod : (a.toNat - m.low.toNat) % m.size < m.size := Nat.mod_lt _ hsize
  rw [mirrorIndex_of_mem hd hm ha, BitVec.toNat_ofNat, Nat.mod_eq_of_lt (by omega)]

/-- A legal set of parameters has regions of which no two overlap (R102). -/
theorem mirrorsDisjoint_of_wellFormed {c : Config} (h : c.wellFormed = true) : mirrorsDisjoint c.mirrors = true := by
  simp only [Config.wellFormed, Bool.and_eq_true] at h
  exact h.2

/-! ### One access of the memory map (R101, R105) -/

theorem hookAt_some {s : State} {a : Word} {h : HookRange} (hh : s.hookAt a = some h) : h ∈ s.hooks ∧ h.low ≤ a ∧ a ≤ h.high := by
  refine ⟨List.mem_of_find?_eq_some hh, ?_⟩
  simpa [HookRange.covers] using List.find?_some hh

theorem not_covered_of_plain {s : State} {a : Word} (hh : s.hookAt a = none) : ∀ h ∈ s.hooks, ¬ (h.low ≤ a ∧ a ≤ h.high) := by
  intro h hmem
  simpa [HookRange.covers] using List.find?_eq_none.mp hh h hmem

theorem accessRead_hooked_hookCalls {s : State} {a : Word} {h : HookRange} (hh : s.hookAt a = some h) :
    (s.accessRead a).hookCalls = { handler := h.handler, addr := a, isRead := true, data := s.dbus } :: s.hookCalls := by
  rw [State.accessRead, resolve_hooked hh]

theorem accessWrite_hooked {s : State} {a : Word} {h : HookRange} (hh : s.hookAt a = some h) (v : Byte) :
    s.accessWrite a v =
      { s with hookCalls := { handler := h.handler, addr := a, isRead := false, data := v } :: s.hookCalls, dbus := v } := by
  rw [State.accessWrite, resolve_hooked hh]

theorem accessWrite_plain {s : State} {a : Word} (hh : s.hookAt a = none) (v : Byte) :
    s.accessWrite a v = { s.poke a v with dbus := v } := by
  rw [State.accessWrite, resolve_plain hh]
  rfl

/-- Settles O30: the hooked access, the plain access, and the index of an uncovered and of a covered address. -/
theorem resolution : Obligations.Resolution := by
  refine ⟨fun s a v h hh => ?_, fun s a v hh => ?_, fun mirrors a => mirrorIndex_uncovered, ?_⟩
  · obtain ⟨hmem, hlow, hhigh⟩ := hookAt_some hh
    refine ⟨hmem, hlow, hhigh, accessRead_mem a s, ?_, accessRead_hooked_hookCalls hh, ?_⟩ <;> rw [accessWrite_hooked hh]
  · refine ⟨not_covered_of_plain hh, ?_, ?_, accessRead_mem a s, ?_, ?_⟩
    · rw [accessRead_plain hh]
    · rw [accessWrite_plain hh]; rfl
    · rw [accessRead_plain hh]; rfl
    · rw [accessWrite_plain hh]; rfl
  · exact fun mirrors m a hd hw hm hlow hhigh => mirrorIndex_toNat_of_mem hd (hw m hm) hm ⟨hlow, hhigh⟩

/-- Settles O28: both addresses have one index, so the read finds the byte stored there. -/
theorem mirrorCoherence : Obligations.MirrorCoherence := by
  intro s m a b v hcfg hmem hm hlowA hhighA hlowB hhighB hoffset hplainA hplainB
  have hd := mirrorsDisjoint_of_wellFormed hcfg
  have hindex : mirrorIndex s.cfg.mirrors b = mirrorIndex s.cfg.mirrors a := by
    rw [mirrorIndex_of_mem hd hm ⟨hlowA, hhighA⟩, mirrorIndex_of_mem hd hm ⟨hlowB, hhighB⟩, hoffset]
  have hplainB' : (s.accessWrite a v).hookAt b = none := (hookAt_congr (accessWrite_hooks a v s) b).trans hplainB
  rw [accessRead_plain hplainB', accessWrite_plain hplainA]
  exact peek_poke_same hmem a b v hindex

/-! ### The default map (R104) -/

/-- The four windows on the 2 KiB of RAM. -/
theorem mirrorIndex_standard_below {a : Word} (ha : a.toNat < 0x2000) : mirrorIndex Config.standard.mirrors a = a &&& 0x07FF := by
  have hcovers : (0x0000 : Word) ≤ a ∧ a ≤ (0x1FFF : Word) := by
    refine ⟨BitVec.le_def.mpr (Nat.zero_le _), BitVec.le_def.mpr ?_⟩
    exact Nat.le_of_lt_succ ha
  have hmem : { low := 0x0000, high := 0x1FFF, base := 0x0000, size := 0x0800 } ∈ Config.standard.mirrors :=
    List.mem_singleton_self _
  rw [mirrorIndex_of_mem (by decide) hmem hcovers]
  refine BitVec.eq_of_toNat_eq ?_
  have hmod : a.toNat &&& 2047 = a.toNat % 2048 := Nat.and_two_pow_sub_one_eq_mod a.toNat 11
  simp [hmod]
  omega

theorem mirrorIndex_standard_above {a : Word} (ha : 0x2000 ≤ a.toNat) : mirrorIndex Config.standard.mirrors a = a := by
  refine mirrorIndex_uncovered fun m hm hcovers => ?_
  cases List.mem_singleton.mp hm
  have hhigh : a.toNat ≤ 0x1FFF := BitVec.le_def.mp hcovers.2
  omega

/-- Settles O29: the index of an address under the standard mirror region. -/
theorem defaultMap : Obligations.DefaultMap := by
  refine ⟨fun s hcfg => ⟨fun a ha => ?_, fun a ha => ?_⟩, fun a => rfl, rfl⟩
  · rw [State.peek, hcfg, mirrorIndex_standard_below ha]
  · rw [State.peek, hcfg, mirrorIndex_standard_above ha]

/-! ### Loading a program (R115) -/

/-- Loading changes the array alone. -/
theorem loadBytes_frame (bytes : List Byte) (s : State) (base : Word) :
    s.loadBytes base bytes = { s with mem := (s.loadBytes base bytes).mem } := by
  induction bytes generalizing s base with
  | nil => rfl
  | cons v vs ih => exact ih (s.poke base v) (base + 1)

theorem loadBytes_wf (bytes : List Byte) {s : State} (base : Word) (hw : Memory.wf s.mem = true) :
    Memory.wf (s.loadBytes base bytes).mem = true := by
  induction bytes generalizing s base with
  | nil => exact hw
  | cons v vs ih => exact ih (base + 1) (poke_wf hw base v)

theorem loadAddress_zero (base : Word) : base + BitVec.ofNat 16 0 = base := BitVec.add_zero base

/-- Address `k + 1` of a load is address `k` of the load of the remaining bytes. -/
theorem loadAddress_succ (base : Word) (k : Nat) : base + BitVec.ofNat 16 (k + 1) = base + 1 + BitVec.ofNat 16 k := by
  rw [Nat.add_comm, BitVec.ofNat_add, BitVec.add_assoc]
  rfl

theorem loadBytes_peek_other (bytes : List Byte) (s : State) (base a : Word)
    (h : ∀ k, k < bytes.length → s.Apart a (base + BitVec.ofNat 16 k)) : (s.loadBytes base bytes).peek a = s.peek a := by
  induction bytes generalizing s base with
  | nil => rfl
  | cons v vs ih =>
    have hrest : ∀ k, k < vs.length → (s.poke base v).Apart a (base + 1 + BitVec.ofNat 16 k) := fun k hk => by
      rw [← loadAddress_succ]
      exact h (k + 1) (Nat.succ_lt_succ hk)
    have hfirst : s.Apart a base := loadAddress_zero base ▸ h 0 (Nat.succ_pos _)
    exact (ih (s.poke base v) (base + 1) hrest).trans (peek_poke_other s base a v hfirst)

/-- A byte that no later byte of the load overwrites is what its address reads. -/
theorem loadBytes_peek_same (bytes : List Byte) {s : State} (base : Word) (hw : Memory.wf s.mem = true) (k : Nat)
    (hk : k < bytes.length)
    (h : ∀ j, k < j → j < bytes.length → s.Apart (base + BitVec.ofNat 16 j) (base + BitVec.ofNat 16 k)) :
    (s.loadBytes base bytes).peek (base + BitVec.ofNat 16 k) = bytes.getD k 0 := by
  induction bytes generalizing s base k with
  | nil => exact absurd hk (Nat.not_lt_zero k)
  | cons v vs ih =>
    cases k with
    | zero =>
      rw [loadAddress_zero] at h ⊢
      have hrest : ∀ j, j < vs.length → (s.poke base v).Apart base (base + 1 + BitVec.ofNat 16 j) := fun j hj => by
        rw [← loadAddress_succ]
        exact (h (j + 1) (Nat.succ_pos j) (Nat.succ_lt_succ hj)).symm
      exact (loadBytes_peek_other vs (s.poke base v) (base + 1) base hrest).trans (peek_poke_same hw base base v rfl)
    | succ k =>
      rw [loadAddress_succ]
      refine ih (base + 1) (poke_wf hw base v) k (Nat.lt_of_succ_lt_succ hk) fun j hkj hj => ?_
      rw [← loadAddress_succ, ← loadAddress_succ]
      exact h (j + 1) (Nat.succ_lt_succ hkj) (Nat.succ_lt_succ hj)

/-- Settles O33: the two failures, then the load byte by byte. -/
theorem programLoad : Obligations.ProgramLoad := by
  intro s base bytes hw
  refine ⟨rfl, fun hlarge => if_pos hlarge, fun hfits => ⟨s.loadBytes base bytes, if_neg (Nat.not_lt.mpr hfits), ?_⟩⟩
  exact ⟨loadBytes_frame bytes s base, loadBytes_wf bytes base hw, loadBytes_peek_same bytes base hw,
    loadBytes_peek_other bytes s base⟩

end Sys2Proof.Machine
end

section
/-!
RDY (R93). After a read a tick with RDY = 1 is `clock_wait`. After a write the RDY level goes into the latch `rdyLine` and nowhere
else: nothing a tick does reads that latch, so every part of the tick commutes with setting it.
-/

namespace Sys2Proof.Machine

/-- `s` with another RDY level sampled. -/
def State.withRdy (b : Bool) (s : State) : State := { s with ctl := { s.ctl with rdyLine := b } }

/-- States with the same fields are the same state. -/
theorem State.eq_of_fields {s u : State} (hregs : s.regs = u.regs) (hlatch : s.latch = u.latch) (hseq : s.seq = u.seq)
    (ht : s.t = u.t) (hctl : s.ctl = u.ctl) (hbus : s.lastBus = u.lastBus) (hdbus : s.dbus = u.dbus) (hmem : s.mem = u.mem)
    (hhooks : s.hooks = u.hooks) (hcalls : s.hookCalls = u.hookCalls) (hcfg : s.cfg = u.cfg) (hinputs : s.inputs = u.inputs)
    (htrace : s.trace = u.trace) : s = u := by
  cases s
  cases u
  simp_all only

/-! ### What does not read the RDY level -/

theorem rows_withRdy (b : Bool) (s : State) : (s.withRdy b).rows = s.rows := rows_congr rfl rfl rfl

/-- A local action neither reads nor sets the RDY level. -/
theorem LocalAct.withRdy {act : State → State} (h : LocalAct act) (b : Bool) (s : State) :
    act (s.withRdy b) = (act s).withRdy b := by
  have hq := h.quiet s
  have hq' := h.quiet (s.withRdy b)
  have hctl : (act (s.withRdy b)).ctl = { (act s).ctl with rdyLine := b } := by
    rcases h.ctl with hc | hc <;> (rw [hc, hc]; rfl)
  have hseq : (act (s.withRdy b)).seq = (act s).seq := by
    rcases h.seq with hs | hs <;> exact (hs _).trans (hs s).symm
  exact State.eq_of_fields (h.regs s (s.withRdy b)) (h.latch s (s.withRdy b)) hseq (hq'.t.trans hq.t.symm) hctl
    (hq'.lastBus.trans hq.lastBus.symm) (hq'.dbus.trans hq.dbus.symm) (hq'.mem.trans hq.mem.symm)
    (hq'.hooks.trans hq.hooks.symm) (hq'.hookCalls.trans hq.hookCalls.symm) (hq'.cfg.trans hq.cfg.symm)
    (hq'.inputs.trans hq.inputs.symm) (hq'.trace.trans hq.trace.symm)

theorem emitRow_withRdy {r : Row} (h : LocalRow r) (b : Bool) (s : State) :
    State.emitRow r (s.withRdy b) = (State.emitRow r s).withRdy b := by
  have haddr : r.addr (s.withRdy b) = r.addr s := h.addr s (s.withRdy b)
  unfold State.emitRow
  cases hv : r.value with
  | none => rw [haddr]; rfl
  | some v =>
    have hvalue : v (s.withRdy b) = v s := h.value v hv s (s.withRdy b)
    simp only [haddr, hvalue, h.act.withRdy]
    rfl

/-- The boundary decision asks the other latches of the controller only (R405). -/
theorem boundary_withRdy (b : Bool) (s : State) : (s.withRdy b).boundary = s.boundary.map id (State.withRdy b) := by
  unfold State.boundary
  simp only [apply_ite (Prod.map id (State.withRdy b))]
  rfl

/-- Cycle 1 of the sequence that runs, on the pins. -/
def State.emitFirst (s : State) : State :=
  match s.rows with
  | [] => s
  | r :: _ => s.emitRow r

theorem startSequence_eq_emitFirst (s : State) : s.startSequence = (s.boundary.2.within s.boundary.1 1).emitFirst := rfl

theorem emitFirst_withRdy (b : Bool) (s : State) : (s.withRdy b).emitFirst = s.emitFirst.withRdy b := by
  unfold State.emitFirst
  rw [rows_withRdy]
  cases hrows : s.rows with
  | nil => rfl
  | cons r rs => exact emitRow_withRdy (rows_local s r (hrows ▸ List.mem_cons_self)) b s

theorem startSequence_withRdy (b : Bool) (s : State) : (s.withRdy b).startSequence = s.startSequence.withRdy b := by
  rw [startSequence_eq_emitFirst, boundary_withRdy]
  exact emitFirst_withRdy b (s.boundary.2.within s.boundary.1 1)

/-- The RDY level decides neither which row is completed nor what its action does. -/
theorem completeRow_withRdy (b : Bool) (s : State) : (s.withRdy b).completeRow = s.completeRow.withRdy b := by
  have hindex : (s.withRdy b).rows[(s.withRdy b).t - 1]? = s.rows[s.t - 1]? := congrArg (·[s.t - 1]?) (rows_withRdy b s)
  unfold State.completeRow
  rw [hindex]
  cases hrow : s.rows[s.t - 1]? with
  | none => rfl
  | some r =>
    have hlocal : LocalRow r := rows_local s r (List.mem_of_getElem? hrow)
    dsimp only
    cases r.value with
    | none => exact hlocal.act.withRdy b s.latchDl
    | some v => rfl

theorem dropWhile_happens_withRdy {rs : List Row} (h : LocalRows rs) (b : Bool) (s : State) :
    rs.dropWhile (fun r => !r.happens (s.withRdy b)) = rs.dropWhile (fun r => !r.happens s) := by
  induction rs with
  | nil => rfl
  | cons r rs ih =>
    have hr : r.happens (s.withRdy b) = r.happens s := (h r List.mem_cons_self).happens s (s.withRdy b)
    rw [List.dropWhile_cons, List.dropWhile_cons, hr, ih fun r' hr' => h r' (List.mem_cons_of_mem r hr')]

theorem advance_withRdy (b : Bool) (s : State) : (s.withRdy b).advance = s.advance.withRdy b := by
  have hdrop : LocalRows (s.rows.drop s.t) := fun r hr => rows_local s r (List.mem_of_mem_drop hr)
  have hrest : ((s.withRdy b).rows.drop (s.withRdy b).t).dropWhile (fun r => !r.happens (s.withRdy b)) =
      (s.rows.drop s.t).dropWhile (fun r => !r.happens s) := by
    rw [rows_withRdy]
    exact dropWhile_happens_withRdy hdrop b s
  unfold State.advance
  rw [hrest]
  cases hnext : (s.rows.drop s.t).dropWhile (fun r => !r.happens s) with
  | nil => exact startSequence_withRdy b s
  | cons r rs =>
    have hmem : r ∈ s.rows.drop s.t := (List.dropWhile_sublist _).subset (hnext ▸ List.mem_cons_self)
    exact emitRow_withRdy (hdrop r hmem) b { s with t := s.t + 1 }

/-! ### The tick after a write -/

/-- After a write the tick advances, whatever RDY is. -/
theorem clock_after_write {s : State} {c : BusCycle} (d : Byte) (l : Lines) (ht : s.t ≠ 0) (hb : s.lastBus = some c)
    (hr : c.read = false) : s.clock d l = ({ s.sample l with dbus := d } : State).completeRow.advance := by
  have hlast : ({ s.sample l with dbus := d } : State).lastRead = false := by
    show (match s.lastBus with | some c => c.read | none => false) = false
    rw [hb]
    exact hr
  have hgo : ¬ (l.rdy && ({ s.sample l with dbus := d } : State).lastRead) = true := by
    rw [hlast, Bool.and_false]
    exact Bool.false_ne_true
  exact (if_neg ht).trans (if_neg hgo)

theorem clock_rdy_after_write {s : State} {c : BusCycle} (d : Byte) (l : Lines) (ht : s.t ≠ 0) (hb : s.lastBus = some c)
    (hr : c.read = false) : s.clock d l = (s.clock d { l with rdy := false }).withRdy l.rdy := by
  have hsample : ({ s.sample l with dbus := d } : State) =
      State.withRdy l.rdy { s.sample { l with rdy := false } with dbus := d } := rfl
  rw [clock_after_write d l ht hb hr, clock_after_write d _ ht hb hr, hsample, completeRow_withRdy, advance_withRdy]

/-- Settles O24: the wait after a read, then the RDY level after a write. -/
theorem rdyWaits : Obligations.RdyWaits := by
  refine ⟨fun s d l c ht hb hr hl => ?_, fun s d l c ht hb hr => ?_⟩
  · rw [clock_wait ht hb hr hl]
    exact ⟨rfl, rfl, rfl, rfl, rfl, rfl, rfl⟩
  · rw [clock_rdy_after_write d l ht hb hr]
    exact ⟨rfl, rfl, rfl, rfl, rfl⟩

end Sys2Proof.Machine
end

section
/-!
Instruction forms: what a step that finds an instruction at PC fetches, and, for every form of an access class at once, that a form
which the table describes and whose meaning is the class's plan does what its claim says.
-/

namespace Sys2Proof.Claims

open Sys2Proof.Machine

/-! ### The step that fetches (R172, R405) -/

/-- `s` as the boundary decision leaves it when it decides to fetch (R405). -/
def inhibitCleared (s : State) : State := { s with ctl := { s.ctl with inhibit := false } }

theorem boundary_of_fetchesNext {s : State} (h : FetchesNext s) : s.boundary = (.instr, inhibitCleared s) := by
  obtain ⟨-, hseq, -, hctl⟩ := h
  have hjam : s.seq ≠ .jammed := by rw [hseq]; exact nofun
  unfold State.boundary
  rw [if_neg hjam]
  cases hi : s.ctl.inhibit with
  | true => rfl
  | false =>
    have hs : inhibitCleared s = s := by rw [inhibitCleared, ← hi]
    obtain ⟨hres, hnmi, hirq⟩ := hctl.resolve_left (by rw [hi]; exact Bool.false_ne_true)
    have hline : (s.ctl.irqLine && !s.regs.p.i) = false := by rcases hirq with h | h <;> simp [h]
    simp only [hres, hnmi, hline, hs, Bool.false_eq_true, if_false]

theorem step_of_fetchesNext {s : State} (h : FetchesNext s) :
    step s = exec (inhibitCleared s).fetchInstr.fetched (inhibitCleared s).fetchInstr := by
  have hboundary := boundary_of_fetchesNext h
  obtain ⟨hindex, -, hbus, -⟩ := h
  exact step_fetch hindex hbus hboundary

theorem fetchedBytes_eq (i : Instr) : fetchedBytes i = 1 + operandFetches i.descriptor := by
  unfold fetchedBytes operandFetches Descriptor.length
  split <;> rfl

theorem sameMemory_of_eq {s t : State} (hm : t.mem = s.mem) (hc : t.cfg = s.cfg) : SameMemory s t := ⟨hm, peek_congr hm hc⟩

/-- The fetches of the instruction whose opcode they read. -/
theorem fetches_of_opcode {s u : State} {i : Instr} (h : FetchesNext s) (hd : FetchDone i.opcode (inhibitCleared s) u) :
    Fetches i s u where
  regs := by rw [fetchedBytes_eq]; exact hd.regs
  memory := sameMemory_of_eq hd.mem hd.cfg
  seq := hd.seq
  index := hd.index.trans h.1
  hooks := hd.hooks
  cfg := hd.cfg
  inhibit := hd.inhibit
  ir := hd.ir
  bus hn := by
    rw [fetchedBytes_eq, Nat.add_sub_cancel_left]
    exact hd.bus hn

/-- A step that finds an instruction at PC runs it after its fetches. -/
theorem step_of_holdsAtPc {s : State} {i : Instr} (h : FetchesNext s) (hi : HoldsAtPc i s) :
    ∃ u, step s = exec i u ∧ Fetches i s u := by
  obtain ⟨⟨rest, hdecode⟩, hplain⟩ := hi
  have hpc : s.Plain s.regs.pc := by
    have h0 := hplain 0 (Nat.lt_of_lt_of_le Nat.zero_lt_one (Nat.le_add_right 1 _))
    rwa [BitVec.add_zero] at h0
  have hd : FetchDone (s.peek s.regs.pc) (inhibitCleared s) (inhibitCleared s).fetchInstr :=
    fetchInstr_run (s := inhibitCleared s) hpc
  obtain ⟨hfetched, hopcode⟩ := fetched_of_decode (s := inhibitCleared s) rest hd hdecode hplain
  refine ⟨(inhibitCleared s).fetchInstr, ?_, fetches_of_opcode h (hopcode ▸ hd)⟩
  rw [step_of_fetchesNext h, hfetched]

/-! ### Forms of the instruction table -/

/-- The form is encoded as its opcode and operand bytes, the table describes it so (R143, R147), and its meaning is the plan its mode
selects, run with the operand latched. -/
structure Tabled (op : Operation) (acc : Access) (illegal : Bool) (plan : Mode → Plan) (f : Form) : Prop where
  encodes : ∀ w, encode (f.instr w) = f.opcode :: operandBytesOf f.mode w
  described : descriptor f.opcode =
    { opcode := f.opcode, op := op, mode := f.mode, cycles := f.cycles,
      penalty := decide (acc = .read) && indexedBase f.mode, access := acc, illegal := illegal }
  runs : ∀ w s, exec (f.instr w) s = .next ((plan f.mode).run (loadOperand f.mode w s))

section
variable {op : Operation} {acc : Access} {illegal : Bool} {plan : Mode → Plan} {f : Form}

theorem Tabled.encoded (h : Tabled op acc illegal plan f) : Encoded f op acc illegal := by
  intro w
  have hopcode : (f.instr w).opcode = f.opcode := by rw [Instr.opcode, h.encodes]; rfl
  exact ⟨h.encodes w, (congrArg descriptor hopcode).trans h.described, fun s => step_of_holdsAtPc⟩

theorem mode_of_read_table : ∀ o : Byte, (descriptor o).access = .read →
    (descriptor o).mode = .immediate ∨ addressing (descriptor o).mode = true := by decide

theorem addressing_of_write_table : ∀ o : Byte, (descriptor o).access = .write → addressing (descriptor o).mode = true := by decide

/-- A read-class form is immediate or has an effective address (R171). -/
theorem Tabled.mode_of_read (h : Tabled op .read illegal plan f) : f.mode = .immediate ∨ addressing f.mode = true := by
  have hmode := mode_of_read_table f.opcode
  rw [h.described] at hmode
  exact hmode rfl

/-- A write-class form has an effective address (R171). -/
theorem Tabled.addressing_of_write (h : Tabled op .write illegal plan f) : addressing f.mode = true := by
  have hmode := addressing_of_write_table f.opcode
  rw [h.described] at hmode
  exact hmode rfl

end

/-! ### The access classes (R171) -/

section
variable {op : Operation} {illegal : Bool} {f : Form}

/-- A read-class form: the operand fetch reads the byte of the immediate mode, the data cycles that of the others. -/
theorem Tabled.readForm {rop : ReadOp} (h : Tabled op .read illegal (readPlan · rop) f) : ReadForm op illegal rop f := by
  refine ⟨h.encoded, fun w s => ⟨_, h.runs w s, ?_⟩⟩
  rcases h.mode_of_read with hm | hm
  · rw [hm]
    exact ⟨rfl, ⟨rfl, fun _ => rfl⟩, ⟨rfl, rfl, rfl, rfl, rfl, rfl⟩, fun _ => ⟨rfl, rfl⟩, fun hne => absurd rfl hne⟩
  · have hd := readPlan_run hm rop w s
    have hne : f.mode ≠ .immediate := by rintro he; rw [he] at hm; exact absurd hm (by decide)
    exact ⟨hd.regs, sameMemory_of_eq hd.mem hd.rest.cfg, hd.rest, fun he => absurd he hne,
      fun _ => ⟨hd.located, hd.byte, hd.bus⟩⟩

theorem Tabled.writeForm {value : StoreOp} (h : Tabled op .write illegal (writePlan · value) f) :
    WriteForm op illegal value f := by
  refine ⟨h.encoded, fun w s => ⟨_, h.runs w s, ?_⟩⟩
  have hd := writePlan_run h.addressing_of_write value w s
  exact ⟨hd.regs, hd.located, hd.stores, hd.rest, hd.bus⟩

/-- A form without operand runs its plan in the state as it stands. -/
theorem Tabled.internalForm {iop : InternalOp} (h : Tabled op .internal illegal (fun _ => internalPlan iop) f)
    (hm : f.mode.operandBytes = 0) : InternalForm op illegal iop f := by
  refine ⟨h.encoded, fun w s => ⟨_, h.runs w s, ?_⟩⟩
  have hload : loadOperand f.mode w s = s := by simp only [loadOperand, hm]
  rw [hload]
  have hd := internalPlan_run iop s
  exact ⟨hd.regs, sameMemory_of_eq hd.mem hd.rest.cfg, hd.rest, hd.bus⟩

end

end Sys2Proof.Claims
end

section
/-!
Loads, stores and transfers (41_load_store_transfer.md): every form is in the table with the plan of its operation, and N and Z follow
the byte moved.
-/

namespace Sys2Proof.Claims

open Sys2Proof.Machine

/-- SetNZ (R12) in the terms of the claims. -/
theorem setNZ_eq (v : Byte) (r : Regs) : setNZ v r = { r with p := withNZ v r.p } := by
  have hn : v.getLsbD 7 = decide (128 ≤ v.toNat) := v.msb_eq_decide
  rw [setNZ, hn]
  rfl

/-! ### Loads (R220, R221, R222) -/

theorem opLda_eq : opLda = fun _ m r => intoA m r := by
  funext _ m r
  exact setNZ_eq m _

theorem opLdx_eq : opLdx = fun _ m r => { r with x := m, p := withNZ m r.p } := by
  funext _ m r
  exact setNZ_eq m _

theorem opLdy_eq : opLdy = fun _ m r => { r with y := m, p := withNZ m r.p } := by
  funext _ m r
  exact setNZ_eq m _

theorem ldaForms_tabled : ∀ f ∈ ldaForms, Tabled .LDA .read false (readPlan · opLda) f := by
  intro f hf
  fin_cases hf <;> exact ⟨fun _ => rfl, rfl, fun _ _ => rfl⟩

theorem ldxForms_tabled : ∀ f ∈ ldxForms, Tabled .LDX .read false (readPlan · opLdx) f := by
  intro f hf
  fin_cases hf <;> exact ⟨fun _ => rfl, rfl, fun _ _ => rfl⟩

theorem ldyForms_tabled : ∀ f ∈ ldyForms, Tabled .LDY .read false (readPlan · opLdy) f := by
  intro f hf
  fin_cases hf <;> exact ⟨fun _ => rfl, rfl, fun _ _ => rfl⟩

/-- Settles O39: every form of a load is a read-class form of its operation. -/
theorem loads : Obligations.Loads :=
  ⟨fun f hf => opLda_eq ▸ (ldaForms_tabled f hf).readForm, fun f hf => opLdx_eq ▸ (ldxForms_tabled f hf).readForm,
    fun f hf => opLdy_eq ▸ (ldyForms_tabled f hf).readForm⟩

/-! ### Stores (R223, R224, R225, R355) -/

theorem staForms_tabled : ∀ f ∈ staForms, Tabled .STA .write false (writePlan · opSta) f := by
  intro f hf
  fin_cases hf <;> exact ⟨fun _ => rfl, rfl, fun _ _ => rfl⟩

theorem stxForms_tabled : ∀ f ∈ stxForms, Tabled .STX .write false (writePlan · opStx) f := by
  intro f hf
  fin_cases hf <;> exact ⟨fun _ => rfl, rfl, fun _ _ => rfl⟩

theorem styForms_tabled : ∀ f ∈ styForms, Tabled .STY .write false (writePlan · opSty) f := by
  intro f hf
  fin_cases hf <;> exact ⟨fun _ => rfl, rfl, fun _ _ => rfl⟩

theorem saxForms_tabled : ∀ f ∈ saxForms, Tabled .SAX .write true (writePlan · opSax) f := by
  intro f hf
  fin_cases hf <;> exact ⟨fun _ => rfl, rfl, fun _ _ => rfl⟩

/-- Settles O40: every form of a store is a write-class form of its operation. -/
theorem storesOfRegisters : Obligations.StoresOfRegisters :=
  ⟨fun f hf => (staForms_tabled f hf).writeForm, fun f hf => (stxForms_tabled f hf).writeForm,
    fun f hf => (styForms_tabled f hf).writeForm, fun f hf => (saxForms_tabled f hf).writeForm⟩

/-! ### Transfers (R226 to R231) -/

/-- The claim of an implied internal instruction whose operation is the effect claimed. -/
theorem implied_internalForm {op : Operation} {illegal : Bool} {o : Byte} {n : Nat} {i : Instr} {iop effect : InternalOp}
    (h : Tabled op .internal illegal (fun _ => internalPlan iop) ⟨o, .implied, n, fun _ => i⟩) (he : iop = effect) :
    InternalForm op illegal effect ⟨o, .implied, n, fun _ => i⟩ :=
  he ▸ h.internalForm rfl

/-- Settles O41: each transfer is an implied internal operation; all but TXS set N and Z from the byte moved. -/
theorem transfers : Obligations.Transfers :=
  ⟨implied_internalForm (iop := opTax) ⟨fun _ => rfl, rfl, fun _ _ => rfl⟩ (funext fun r => setNZ_eq r.a _),
    implied_internalForm (iop := opTay) ⟨fun _ => rfl, rfl, fun _ _ => rfl⟩ (funext fun r => setNZ_eq r.a _),
    implied_internalForm (iop := opTxa) ⟨fun _ => rfl, rfl, fun _ _ => rfl⟩ (funext fun r => setNZ_eq r.x _),
    implied_internalForm (iop := opTya) ⟨fun _ => rfl, rfl, fun _ _ => rfl⟩ (funext fun r => setNZ_eq r.y _),
    implied_internalForm (iop := opTsx) ⟨fun _ => rfl, rfl, fun _ _ => rfl⟩ (funext fun r => setNZ_eq r.s _),
    implied_internalForm (iop := opTxs) ⟨fun _ => rfl, rfl, fun _ _ => rfl⟩ rfl⟩

end Sys2Proof.Claims
end

section
/-!
Pushes and pulls (42_stack.md): the four instructions are in the table with the push or the pull plan, and the status byte pulled is
read bit by bit.
-/

namespace Sys2Proof.Claims

open Sys2Proof.Machine

/-! ### The table (R143, R147) -/

theorem pha_tabled : Tabled .PHA .stackControl false (fun _ => phaPlan) ⟨0x48, .implied, 3, fun _ => .pha⟩ :=
  ⟨fun _ => rfl, rfl, fun _ _ => rfl⟩

theorem php_tabled : Tabled .PHP .stackControl false (fun _ => phpPlan) ⟨0x08, .implied, 3, fun _ => .php⟩ :=
  ⟨fun _ => rfl, rfl, fun _ _ => rfl⟩

theorem pla_tabled : Tabled .PLA .stackControl false (fun _ => plaPlan) ⟨0x68, .implied, 4, fun _ => .pla⟩ :=
  ⟨fun _ => rfl, rfl, fun _ _ => rfl⟩

theorem plp_tabled : Tabled .PLP .stackControl false (fun _ => plpPlan) ⟨0x28, .implied, 4, fun _ => .plp⟩ :=
  ⟨fun _ => rfl, rfl, fun _ _ => rfl⟩

/-! ### Pushes (R240, R241) -/

/-- Settles O42: each push runs the push plan, on A or on PackP(1). -/
theorem pushes : Obligations.Pushes := by
  refine ⟨⟨pha_tabled.encoded, php_tabled.encoded⟩, fun s => ?_, fun s => ?_⟩
  · have hd : PushDone s.regs.a s (phaPlan.run s) := pushPlan_run (fun r => r.a) s
    exact ⟨_, pha_tabled.runs 0 s, hd.regs, hd.stores, hd.rest, hd.bus⟩
  · have hd : PushDone (packP true s.regs.p) s (phpPlan.run s) := pushPlan_run (fun r => packP true r.p) s
    exact ⟨_, php_tabled.runs 0 s, hd.regs, hd.stores, hd.rest, hd.bus⟩

/-! ### Pulls (R242, R243) -/

theorem getLsbD_eq_decide_div (v : Byte) (k : Nat) : v.getLsbD k = decide (v.toNat / 2 ^ k % 2 = 1) :=
  Nat.testBit_eq_decide_div_mod_eq

/-- UnpackP (R39) in the terms of the claims. -/
theorem unpackP_eq (v : Byte) : unpackP v =
    { n := topBit v, v := decide (v.toNat / 64 % 2 = 1), d := decide (v.toNat / 8 % 2 = 1),
      i := decide (v.toNat / 4 % 2 = 1), z := decide (v.toNat / 2 % 2 = 1), c := lowBit v } := by
  have hn : v.getLsbD 7 = topBit v := v.msb_eq_decide
  have hc : v.getLsbD 0 = lowBit v := by rw [getLsbD_eq_decide_div, pow_zero, Nat.div_one, lowBit]
  rw [unpackP, hn, hc]
  simp only [getLsbD_eq_decide_div, Nat.reducePow]

/-- Settles O43: each pull reads the byte above S into DL; PLA takes it as a byte moved to A, PLP as a status byte. -/
theorem pulls : Obligations.Pulls := by
  refine ⟨⟨pla_tabled.encoded, plp_tabled.encoded⟩, fun s => ?_, fun s => ?_⟩
  · have hd := plaPlan_run s
    have hnz := setNZ_eq (plaPlan.run s).latch.dl { s.regs with a := (plaPlan.run s).latch.dl, s := s.regs.s + 1 }
    exact ⟨_, pla_tabled.runs 0 s, hd.regs.trans hnz, hd.byte, sameMemory_of_eq hd.mem hd.rest.cfg, hd.rest, hd.bus⟩
  · have hd := plpPlan_run s
    have hp := congrArg (fun p => { s.regs with s := s.regs.s + 1, p := p }) (unpackP_eq (plpPlan.run s).latch.dl)
    exact ⟨_, plp_tabled.runs 0 s, hd.regs.trans hp, hd.byte, sameMemory_of_eq hd.mem hd.rest.cfg, hd.rest, hd.bus⟩

end Sys2Proof.Claims
end

section
/-!
Arithmetic (43_alu.md section 1): the fields of a byte as numbers, then binary and decimal addition and subtraction against their
meaning on exact integers, field by field.
-/

namespace Sys2Proof.Claims

open Sys2Proof.Machine

/-! ### The fields of a byte as numbers -/

theorem getLsbD_seven (v : Byte) : v.getLsbD 7 = decide (128 ≤ v.toNat) := v.msb_eq_decide

theorem toNat_lowDigit (v : Byte) : (v &&& 0x0F).toNat = v.toNat % 16 := Nat.and_two_pow_sub_one_eq_mod v.toNat 4

theorem toNat_highDigit (v : Byte) : (v &&& 0xF0).toNat = v.toNat / 16 * 16 := by
  have hshift : v &&& (0xF0 : Byte) = v >>> 4 <<< 4 := by
    refine BitVec.eq_of_getElem_eq fun k hk => ?_
    interval_cases k <;> simp
  rw [hshift, BitVec.toNat_shiftLeft, BitVec.toNat_ushiftRight, Nat.shiftLeft_eq, Nat.shiftRight_eq_div_pow]
  omega

theorem ofNat_highDigit (v : Byte) : BitVec.ofNat 8 (v.toNat / 16 * 16) = v &&& 0xF0 := by
  rw [← toNat_highDigit, BitVec.ofNat_toNat, BitVec.setWidth_eq]

theorem xor_ff (m : Byte) : m ^^^ 0xFF = ~~~m := BitVec.xor_allOnes

/-! ### Binary addition and subtraction (R250, R252) -/

theorem binaryAdd_eq_sumOf (a m : Byte) (c : Bool) : binaryAdd a m c = sumOf a m c := by
  rw [binaryAdd, getLsbD_seven (BitVec.ofNat 8 _)]
  rfl

/-- The complement of the subtrahend makes the sum exceed the difference by 256. -/
theorem add_complement_eq (a m : Byte) (c : Bool) :
    ((a.toNat + (m ^^^ 0xFF).toNat + c.toNat : Nat) : Int) = (a.toNat - m.toNat - (1 - c.toNat) : Int) + 256 := by
  rw [xor_ff, BitVec.toNat_not]
  omega

theorem binarySub_eq_differenceOf (a m : Byte) (c : Bool) : binarySub a m c = differenceOf a m c := by
  have hsum := add_complement_eq a m c
  have hr : BitVec.ofNat 8 (a.toNat + (m ^^^ 0xFF).toNat + c.toNat) = BitVec.ofInt 8 (a.toNat - m.toNat - (1 - c.toNat)) := by
    refine BitVec.eq_of_toInt_eq ?_
    rw [← BitVec.ofInt_natCast, hsum, BitVec.toInt_ofInt, BitVec.toInt_ofInt]
    exact Int.add_bmod_right ..
  have hc : 255 < a.toNat + (m ^^^ 0xFF).toNat + c.toNat ↔ (0 : Int) ≤ a.toNat - m.toNat - (1 - c.toNat) := by omega
  have hv : ~~~(a ^^^ (m ^^^ 0xFF)) = a ^^^ m := by rw [xor_ff, BitVec.not_xor_right, BitVec.not_not]
  rw [binarySub, binaryAdd_eq_sumOf, sumOf, differenceOf, hr, hv, decide_eq_decide.mpr hc]

/-- V is set when the operands have one sign and the result has the other. -/
theorem binaryAdd_v_iff (a m : Byte) (c : Bool) :
    (binaryAdd a m c).v = true ↔
      (128 ≤ a.toNat ↔ 128 ≤ m.toNat) ∧ ¬ (128 ≤ a.toNat ↔ 128 ≤ (a.toNat + m.toNat + c.toNat) % 256) := by
  simp only [binaryAdd, BitVec.getLsbD_and, BitVec.getLsbD_not, BitVec.getLsbD_xor]
  simp [getLsbD_seven, -BitVec.getLsbD_eq_getElem]

/-- The signs as numbers: a byte from 128 on stands for itself less 256. -/
theorem binaryAdd_overflow_iff (a m : Byte) (c : Bool) :
    (binaryAdd a m c).v = true ↔ a.toInt + m.toInt + c.toNat < -128 ∨ 127 < a.toInt + m.toInt + c.toNat := by
  have hc := c.toNat_le
  rw [binaryAdd_v_iff, BitVec.toInt_eq_toNat_cond, BitVec.toInt_eq_toNat_cond]
  omega

/-- Settles O36: both results field by field, V by the signs; BinarySub is defined by BinaryAdd. -/
theorem binaryArithmetic : Obligations.BinaryArithmetic := fun a m c =>
  ⟨binaryAdd_eq_sumOf a m c, binarySub_eq_differenceOf a m c, binaryAdd_overflow_iff a m c, rfl⟩

/-! ### Decimal addition and subtraction (R251, R253) -/

theorem decimalAdd_eq_decimalSumOf (a m : Byte) (c : Bool) : decimalAdd a m c = decimalSumOf a m c := by
  have hz : ∀ n, (BitVec.ofNat 8 n == 0) = decide (n % 256 = 0) := fun n => by
    exact decide_eq_decide.mpr BitVec.toNat_inj.symm
  have hn : ∀ n : Nat, n.testBit 7 = decide (n / 128 % 2 = 1) := fun n => Nat.testBit_eq_decide_div_mod_eq
  simp only [decimalAdd, toNat_lowDigit, toNat_highDigit, hz, hn, ← Bool.decide_or, decimalSumOf, ofNat_highDigit]

theorem decimalSub_eq_decimalDifferenceOf (a m : Byte) (c : Bool) : decimalSub a m c = decimalDifferenceOf a m c := by
  simp only [decimalSub, toNat_lowDigit, toNat_highDigit, binarySub_eq_differenceOf]
  rfl

/-- Settles O37: the masks of the decimal formulas are the digits, and the flags of DecimalSub those of BinarySub. -/
theorem decimalArithmetic : Obligations.DecimalArithmetic := fun a m c =>
  ⟨decimalAdd_eq_decimalSumOf a m c, decimalSub_eq_decimalDifferenceOf a m c⟩

end Sys2Proof.Claims
end

section
/-!
Arithmetic, logic and compare instructions (43_alu.md sections 2 to 4): what each operation does to the registers in the terms of the
claims, and that every form is in the table with the plan of its operation.
-/

namespace Sys2Proof.Claims

open Sys2Proof.Machine

/-! ### The operations -/

theorem opAdc_eq : opAdc = adcEffect := by
  funext cfg m r
  simp only [opAdc, addWithCarry, adcEffect, Bool.and_eq_true, decimalAdd_eq_decimalSumOf, binaryAdd_eq_sumOf]
  rfl

theorem opSbc_eq : opSbc = sbcEffect := by
  funext cfg m r
  simp only [opSbc, subWithBorrow, sbcEffect, Bool.and_eq_true, decimalSub_eq_decimalDifferenceOf, binarySub_eq_differenceOf]
  rfl

/-- USBC is SBC (R365). -/
theorem opUsbc_eq : opUsbc = sbcEffect := opSbc_eq

theorem opAnd_eq : opAnd = fun _ m r => intoA (r.a &&& m) r := by
  funext _ m r
  exact setNZ_eq (r.a &&& m) _

theorem opOra_eq : opOra = fun _ m r => intoA (r.a ||| m) r := by
  funext _ m r
  exact setNZ_eq (r.a ||| m) _

theorem opEor_eq : opEor = fun _ m r => intoA (r.a ^^^ m) r := by
  funext _ m r
  exact setNZ_eq (r.a ^^^ m) _

theorem compare_eq (x m : Byte) (r : Regs) : Machine.compare x m r = compareEffect x m r := by
  have hn : (x - m).getLsbD 7 = decide (128 ≤ (x.toNat + 256 - m.toNat) % 256) := by
    rw [getLsbD_seven, BitVec.toNat_sub]
    congr 4
    omega
  rw [Machine.compare, hn]
  rfl

theorem opCmp_eq : opCmp = fun _ m r => compareEffect r.a m r := by
  funext _ m r
  exact compare_eq r.a m r

theorem opCpx_eq : opCpx = fun _ m r => compareEffect r.x m r := by
  funext _ m r
  exact compare_eq r.x m r

theorem opCpy_eq : opCpy = fun _ m r => compareEffect r.y m r := by
  funext _ m r
  exact compare_eq r.y m r

theorem opBit_eq : opBit = fun _ m r => { r with p := { r.p with
    z := decide (r.a &&& m = 0), n := topBit m, v := decide (m.toNat / 64 % 2 = 1) } } := by
  funext _ m r
  rw [opBit, getLsbD_seven, getLsbD_eq_decide_div]
  rfl

/-! ### The table (R143, R147) -/

theorem adcForms_tabled : ∀ f ∈ adcForms, Tabled .ADC .read false (readPlan · opAdc) f := by
  intro f hf
  fin_cases hf <;> exact ⟨fun _ => rfl, rfl, fun _ _ => rfl⟩

theorem sbcForms_tabled : ∀ f ∈ sbcForms, Tabled .SBC .read false (readPlan · opSbc) f := by
  intro f hf
  fin_cases hf <;> exact ⟨fun _ => rfl, rfl, fun _ _ => rfl⟩

theorem usbcForms_tabled : ∀ f ∈ usbcForms, Tabled .USBC .read true (readPlan · opUsbc) f := by
  intro f hf
  fin_cases hf
  exact ⟨fun _ => rfl, rfl, fun _ _ => rfl⟩

theorem andForms_tabled : ∀ f ∈ andForms, Tabled .AND .read false (readPlan · opAnd) f := by
  intro f hf
  fin_cases hf <;> exact ⟨fun _ => rfl, rfl, fun _ _ => rfl⟩

theorem oraForms_tabled : ∀ f ∈ oraForms, Tabled .ORA .read false (readPlan · opOra) f := by
  intro f hf
  fin_cases hf <;> exact ⟨fun _ => rfl, rfl, fun _ _ => rfl⟩

theorem eorForms_tabled : ∀ f ∈ eorForms, Tabled .EOR .read false (readPlan · opEor) f := by
  intro f hf
  fin_cases hf <;> exact ⟨fun _ => rfl, rfl, fun _ _ => rfl⟩

theorem cmpForms_tabled : ∀ f ∈ cmpForms, Tabled .CMP .read false (readPlan · opCmp) f := by
  intro f hf
  fin_cases hf <;> exact ⟨fun _ => rfl, rfl, fun _ _ => rfl⟩

theorem cpxForms_tabled : ∀ f ∈ cpxForms, Tabled .CPX .read false (readPlan · opCpx) f := by
  intro f hf
  fin_cases hf <;> exact ⟨fun _ => rfl, rfl, fun _ _ => rfl⟩

theorem cpyForms_tabled : ∀ f ∈ cpyForms, Tabled .CPY .read false (readPlan · opCpy) f := by
  intro f hf
  fin_cases hf <;> exact ⟨fun _ => rfl, rfl, fun _ _ => rfl⟩

theorem bitForms_tabled : ∀ f ∈ bitForms, Tabled .BIT .read false (readPlan · opBit) f := by
  intro f hf
  fin_cases hf <;> exact ⟨fun _ => rfl, rfl, fun _ _ => rfl⟩

/-! ### The claims (R254 to R263, R365) -/

/-- Settles O44: ADC, SBC and USBC are read-class forms of their operations. -/
theorem addSubtract : Obligations.AddSubtract :=
  ⟨fun f hf => opAdc_eq ▸ (adcForms_tabled f hf).readForm, fun f hf => opSbc_eq ▸ (sbcForms_tabled f hf).readForm,
    fun f hf => opUsbc_eq ▸ (usbcForms_tabled f hf).readForm⟩

/-- Settles O45: AND, ORA and EOR are read-class forms of their operations. -/
theorem logic : Obligations.Logic :=
  ⟨fun f hf => opAnd_eq ▸ (andForms_tabled f hf).readForm, fun f hf => opOra_eq ▸ (oraForms_tabled f hf).readForm,
    fun f hf => opEor_eq ▸ (eorForms_tabled f hf).readForm⟩

/-- Settles O46: the comparisons and BIT are read-class forms of their operations. -/
theorem compares : Obligations.Compares :=
  ⟨fun f hf => opCmp_eq ▸ (cmpForms_tabled f hf).readForm, fun f hf => opCpx_eq ▸ (cpxForms_tabled f hf).readForm,
    fun f hf => opCpy_eq ▸ (cpyForms_tabled f hf).readForm, fun f hf => opBit_eq ▸ (bitForms_tabled f hf).readForm⟩

end Sys2Proof.Claims
end

section
/-!
Increment, decrement, shift and rotate instructions (44_incdec_shift.md): the read-modify-write class and the accumulator forms for
every operation at once, then what each operation does in the terms of the claims.
-/

namespace Sys2Proof.Claims

open Sys2Proof.Machine

/-! ### The read-modify-write class (R171) and the accumulator forms (R174) -/

theorem addressing_of_readModifyWrite_table : ∀ o : Byte, (descriptor o).access = .readModifyWrite →
    addressing (descriptor o).mode = true := by decide

section
variable {op : Operation} {illegal : Bool} {rop : RmwOp} {f : Form}

/-- A read-modify-write form has an effective address (R171). -/
theorem Tabled.addressing_of_readModifyWrite {plan : Mode → Plan} (h : Tabled op .readModifyWrite illegal plan f) :
    addressing f.mode = true := by
  have hmode := addressing_of_readModifyWrite_table f.opcode
  rw [h.described] at hmode
  exact hmode rfl

theorem Tabled.rmwForm {result : Byte → Regs → Byte} {effect : Config → Byte → Regs → Regs}
    (h : Tabled op .readModifyWrite illegal (rmwPlan · rop) f) (hop : rop = fun cfg m r => (result m r, effect cfg m r)) :
    RmwForm op illegal result effect f := by
  subst hop
  refine ⟨h.encoded, fun w s => ⟨_, h.runs w s, ?_⟩⟩
  have hd := rmwPlan_run h.addressing_of_readModifyWrite (fun cfg m r => (result m r, effect cfg m r)) w s
  exact ⟨hd.regs, hd.located, hd.byte, hd.stores, hd.rest, hd.bus⟩

/-- The accumulator form of an operation on a byte reads A for the byte and takes the result into A. -/
theorem Tabled.accumulatorForm {result : Byte → Regs → Byte} {effect : Byte → Regs → Regs}
    (h : Tabled op .internal illegal (fun _ => accumulatorPlan rop) f) (hm : f.mode.operandBytes = 0)
    (hop : rop = fun _ m r => (result m r, effect m r)) :
    InternalForm op illegal (fun r => { effect r.a r with a := result r.a r }) f := by
  subst hop
  refine ⟨h.encoded, fun w s => ⟨_, h.runs w s, ?_⟩⟩
  have hload : loadOperand f.mode w s = s := by simp only [loadOperand, hm]
  rw [hload]
  have hd := accumulatorPlan_run (fun _ m r => (result m r, effect m r)) s
  exact ⟨hd.regs, sameMemory_of_eq hd.mem hd.rest.cfg, hd.rest, hd.bus⟩

end

/-! ### Increment and decrement (R280 to R285) -/

theorem opInc_eq : opInc = fun _ m r => (m + 1, { r with p := withNZ (m + 1) r.p }) := by
  funext _ m r
  exact congrArg (Prod.mk (m + 1)) (setNZ_eq (m + 1) r)

theorem opDec_eq : opDec = fun _ m r => (m - 1, { r with p := withNZ (m - 1) r.p }) := by
  funext _ m r
  exact congrArg (Prod.mk (m - 1)) (setNZ_eq (m - 1) r)

theorem incForms_tabled : ∀ f ∈ incForms, Tabled .INC .readModifyWrite false (rmwPlan · opInc) f := by
  intro f hf
  fin_cases hf <;> exact ⟨fun _ => rfl, rfl, fun _ _ => rfl⟩

theorem decForms_tabled : ∀ f ∈ decForms, Tabled .DEC .readModifyWrite false (rmwPlan · opDec) f := by
  intro f hf
  fin_cases hf <;> exact ⟨fun _ => rfl, rfl, fun _ _ => rfl⟩

/-- Settles O47: the memory forms are read-modify-write forms of their operations, the register forms implied internal operations; all
set N and Z from the result. -/
theorem incrementDecrement : Obligations.IncrementDecrement :=
  ⟨fun f hf => (incForms_tabled f hf).rmwForm opInc_eq, fun f hf => (decForms_tabled f hf).rmwForm opDec_eq,
    implied_internalForm (iop := opInx) ⟨fun _ => rfl, rfl, fun _ _ => rfl⟩ (funext fun r => setNZ_eq (r.x + 1) _),
    implied_internalForm (iop := opIny) ⟨fun _ => rfl, rfl, fun _ _ => rfl⟩ (funext fun r => setNZ_eq (r.y + 1) _),
    implied_internalForm (iop := opDex) ⟨fun _ => rfl, rfl, fun _ _ => rfl⟩ (funext fun r => setNZ_eq (r.x - 1) _),
    implied_internalForm (iop := opDey) ⟨fun _ => rfl, rfl, fun _ _ => rfl⟩ (funext fun r => setNZ_eq (r.y - 1) _)⟩

/-! ### Shifted bytes as numbers -/

/-- The bit shifted in stands alone at bit 0, so the disjunction is a sum. -/
theorem shiftLeft_eq_rolOf (m : Byte) (c : Bool) : shiftLeft m c = rolOf m c := by
  have hsum : 2 * m.toNat + c.toNat = m.toNat <<< 1 ||| c.toNat := by
    rw [← Nat.shiftLeft_add_eq_or_of_lt (Bool.toNat_lt c), Nat.shiftLeft_eq]
    omega
  rw [rolOf, hsum, BitVec.ofNat_or]
  cases c <;> rfl

/-- The bit shifted in at bit 7 lies above the halved byte, so the disjunction is a sum. -/
theorem shiftRight_eq_rorOf (m : Byte) (c : Bool) : shiftRight m c = rorOf m c := by
  have hhalf : m.toNat >>> 1 < 2 ^ 7 := by
    rw [Nat.shiftRight_eq_div_pow]
    omega
  have hsum : m.toNat / 2 + 128 * c.toNat = c.toNat <<< 7 ||| m.toNat >>> 1 := by
    rw [← Nat.shiftLeft_add_eq_or_of_lt hhalf, Nat.shiftLeft_eq, Nat.shiftRight_eq_div_pow]
    omega
  rw [rorOf, hsum, BitVec.ofNat_or, BitVec.or_comm, ← BitVec.toNat_ushiftRight, BitVec.ofNat_toNat, BitVec.setWidth_eq]
  cases c <;> rfl

theorem shiftLeft_eq_aslOf (m : Byte) : shiftLeft m false = aslOf m := shiftLeft_eq_rolOf m false

theorem shiftRight_eq_lsrOf (m : Byte) : shiftRight m false = lsrOf m := shiftRight_eq_rorOf m false

theorem getLsbD_zero_eq_lowBit (m : Byte) : m.getLsbD 0 = lowBit m := by
  rw [getLsbD_eq_decide_div, pow_zero, Nat.div_one, lowBit]

theorem setNZC_eq (v : Byte) (out : Bool) (r : Regs) : setNZC v out r = shiftFlags v out r := by
  rw [setNZC, getLsbD_seven]
  rfl

/-! ### The operations (R286 to R289) -/

theorem opAsl_eq : opAsl = fun _ m r => (aslOf m, shiftFlags (aslOf m) (topBit m) r) := by
  funext _ m r
  rw [opAsl, shiftLeft_eq_aslOf, getLsbD_seven, setNZC_eq]
  rfl

theorem opLsr_eq : opLsr = fun _ m r => (lsrOf m, shiftFlags (lsrOf m) (lowBit m) r) := by
  funext _ m r
  rw [opLsr, shiftRight_eq_lsrOf, getLsbD_zero_eq_lowBit, setNZC_eq]

theorem opRol_eq : opRol = fun _ m r => (rolOf m r.p.c, shiftFlags (rolOf m r.p.c) (topBit m) r) := by
  funext _ m r
  rw [opRol, shiftLeft_eq_rolOf, getLsbD_seven, setNZC_eq]
  rfl

theorem opRor_eq : opRor = fun _ m r => (rorOf m r.p.c, shiftFlags (rorOf m r.p.c) (lowBit m) r) := by
  funext _ m r
  rw [opRor, shiftRight_eq_rorOf, getLsbD_zero_eq_lowBit, setNZC_eq]

/-! ### The table (R143, R147) -/

theorem aslForms_tabled : ∀ f ∈ aslForms, Tabled .ASL .readModifyWrite false (rmwPlan · opAsl) f := by
  intro f hf
  fin_cases hf <;> exact ⟨fun _ => rfl, rfl, fun _ _ => rfl⟩

theorem lsrForms_tabled : ∀ f ∈ lsrForms, Tabled .LSR .readModifyWrite false (rmwPlan · opLsr) f := by
  intro f hf
  fin_cases hf <;> exact ⟨fun _ => rfl, rfl, fun _ _ => rfl⟩

theorem rolForms_tabled : ∀ f ∈ rolForms, Tabled .ROL .readModifyWrite false (rmwPlan · opRol) f := by
  intro f hf
  fin_cases hf <;> exact ⟨fun _ => rfl, rfl, fun _ _ => rfl⟩

theorem rorForms_tabled : ∀ f ∈ rorForms, Tabled .ROR .readModifyWrite false (rmwPlan · opRor) f := by
  intro f hf
  fin_cases hf <;> exact ⟨fun _ => rfl, rfl, fun _ _ => rfl⟩

theorem aslAcc_tabled : Tabled .ASL .internal false (fun _ => accumulatorPlan opAsl) ⟨0x0A, .accumulator, 2, fun _ => .aslAcc⟩ :=
  ⟨fun _ => rfl, rfl, fun _ _ => rfl⟩

theorem lsrAcc_tabled : Tabled .LSR .internal false (fun _ => accumulatorPlan opLsr) ⟨0x4A, .accumulator, 2, fun _ => .lsrAcc⟩ :=
  ⟨fun _ => rfl, rfl, fun _ _ => rfl⟩

theorem rolAcc_tabled : Tabled .ROL .internal false (fun _ => accumulatorPlan opRol) ⟨0x2A, .accumulator, 2, fun _ => .rolAcc⟩ :=
  ⟨fun _ => rfl, rfl, fun _ _ => rfl⟩

theorem rorAcc_tabled : Tabled .ROR .internal false (fun _ => accumulatorPlan opRor) ⟨0x6A, .accumulator, 2, fun _ => .rorAcc⟩ :=
  ⟨fun _ => rfl, rfl, fun _ _ => rfl⟩

/-- Settles O48: on memory each operation is a read-modify-write form, on A an internal form of the same operation. -/
theorem shiftsAndRotates : Obligations.ShiftsAndRotates :=
  ⟨fun f hf => (aslForms_tabled f hf).rmwForm opAsl_eq, fun f hf => (lsrForms_tabled f hf).rmwForm opLsr_eq,
    fun f hf => (rolForms_tabled f hf).rmwForm opRol_eq, fun f hf => (rorForms_tabled f hf).rmwForm opRor_eq,
    aslAcc_tabled.accumulatorForm rfl opAsl_eq, lsrAcc_tabled.accumulatorForm rfl opLsr_eq,
    rolAcc_tabled.accumulatorForm rfl opRol_eq, rorAcc_tabled.accumulatorForm rfl opRor_eq⟩

end Sys2Proof.Claims
end

section
/-!
Jumps, subroutine call and return, BRK, RTI and the conditional branches (45_control.md): every instruction is in the table with the
plan of its sequence; JSR alone runs with one byte of its operand latched, and a branch's target is PC plus the signed displacement.
-/

namespace Sys2Proof.Claims

open Sys2Proof.Machine

/-! ### The table (R143, R147) -/

theorem jmpAbs_tabled : Tabled .JMP .stackControl false (fun _ => jumpPlan) ⟨0x4C, .absolute, 3, fun w => .jmpAbs w⟩ :=
  ⟨fun _ => rfl, rfl, fun _ _ => rfl⟩

theorem jmpInd_tabled :
    Tabled .JMP .stackControl false (fun _ => jumpIndirectPlan) ⟨0x6C, .indirect, 5, fun w => .jmpInd w⟩ :=
  ⟨fun _ => rfl, rfl, fun _ _ => rfl⟩

theorem rts_tabled : Tabled .RTS .stackControl false (fun _ => rtsPlan) ⟨0x60, .implied, 6, fun _ => .rts⟩ :=
  ⟨fun _ => rfl, rfl, fun _ _ => rfl⟩

theorem rti_tabled : Tabled .RTI .stackControl false (fun _ => rtiPlan) ⟨0x40, .implied, 6, fun _ => .rti⟩ :=
  ⟨fun _ => rfl, rfl, fun _ _ => rfl⟩

theorem brk_tabled : Tabled .BRK .stackControl false (fun _ => brkPlan) ⟨0x00, .implied, 7, fun _ => .brk⟩ :=
  ⟨fun _ => rfl, rfl, fun _ _ => rfl⟩

/-- JSR is no `Tabled` form: its high target byte is not latched when its plan begins (R302). -/
theorem jsr_encoded : Encoded ⟨0x20, .absolute, 6, fun w => .jsr w⟩ .JSR .stackControl false :=
  fun w =>
    have hopcode : (Instr.jsr w).opcode = 0x20 := rfl
    have hdescribed : descriptor 0x20 = ⟨0x20, .JSR, .absolute, 6, false, .stackControl, false⟩ := rfl
    ⟨rfl, (congrArg descriptor hopcode).trans hdescribed, fun _ => step_of_holdsAtPc⟩

theorem exec_jsr (w : Word) (s : State) : exec (.jsr w) s = .next (jsrPlan.run (operand8 (lo w) s)) := rfl

/-! ### Jumps, calls and returns (R300 to R304) -/

/-- Settles O49: the two jumps run their plans; the indirect pointer is taken apart into its page and its place in the page. -/
theorem jumps : Obligations.Jumps := by
  refine ⟨⟨jmpAbs_tabled.encoded, jmpInd_tabled.encoded⟩, fun w s => ?_, fun h l s => ?_⟩
  · have hd := jumpPlan_run w s
    exact ⟨_, jmpAbs_tabled.runs w s, hd.regs, sameMemory_of_eq hd.mem hd.rest.cfg, hd.rest, hd.bus⟩
  · have hd := jumpIndirectPlan_run (pair h l) s
    have hhigh := hd.high
    have hbus := hd.bus
    rw [hi_pair, lo_pair] at hhigh hbus
    exact ⟨_, jmpInd_tabled.runs (pair h l) s, hd.regs, hd.low, hhigh, sameMemory_of_eq hd.mem hd.rest.cfg, hd.rest, hbus⟩

/-- Settles O50: JSR runs with its low target byte latched and reads the high one after its pushes; RTS runs the pull of a word. -/
theorem subroutines : Obligations.Subroutines := by
  refine ⟨⟨jsr_encoded, rts_tabled.encoded⟩, fun w s => ?_, fun s => ?_⟩
  · have hd := jsrPlan_run (lo w) s
    exact ⟨_, exec_jsr w s, hd.regs, hd.high, hd.mem, hd.frame, hd.rest, hd.bus⟩
  · have hd := rtsPlan_run s
    exact ⟨_, rts_tabled.runs 0 s, hd.regs, hd.low, hd.high, sameMemory_of_eq hd.mem hd.rest.cfg, hd.rest, hd.bus⟩

/-- Settles O51: RTI runs the return table, the pulled status byte being the one its plan answers. -/
theorem interruptReturn : Obligations.InterruptReturn := by
  refine ⟨rti_tabled.encoded, fun s => ?_⟩
  have hd := rtiPlan_run s
  obtain ⟨p, hregs, hp⟩ := hd.regs
  exact ⟨_, p, rti_tabled.runs 0 s, hregs, hp, hd.low, hd.high, sameMemory_of_eq hd.mem hd.rest.cfg, hd.rest, hd.bus⟩

/-! ### BRK (R305) -/

/-- Settles O52: BRK skips its padding byte and enters through the IRQ vector. -/
theorem softwareInterrupt : Obligations.SoftwareInterrupt := by
  refine ⟨brk_tabled.encoded, fun s => ?_⟩
  have hd := brkPlan_run s
  exact ⟨_, brk_tabled.runs 0 s, hd.entry, hd.bus⟩

/-! ### Branches (R306 to R314, R193) -/

/-- The sign-extended displacement stands for its signed value, so the sum of words is the word of the sum. -/
theorem add_sext_eq_ofInt (pc : Word) (b : Byte) : pc + sext b = BitVec.ofInt 16 (pc.toNat + b.toInt) := by
  have hsext : sext b = BitVec.ofInt 16 b.toInt := rfl
  rw [BitVec.ofInt_add, BitVec.ofInt_natCast, BitVec.ofNat_toNat, BitVec.setWidth_eq, hsext]

/-- A branch that is not taken makes no cycle after its operand fetch, waits or not. -/
theorem branchPlan_run_untaken {c : Status → Bool} {s : State} (hc : c s.regs.p = false) (b : Byte) :
    (branchPlan c).run (operand8 b s) = operand8 b s := by
  simp [Plan.run, branchPlan, hc]

/-- A branch form whose plan tests the condition claimed: taken it runs the plan's cycles, untaken it makes none. -/
theorem Tabled.branchForm {op : Operation} {f : Form} {c : Status → Bool} {cond : Status → Prop}
    (h : Tabled op .branch false (fun _ => branchPlan c) f) (hm : f.mode.operandBytes = 1) (hc : ∀ p, c p = true ↔ cond p) :
    BranchForm op cond f := by
  refine ⟨h.encoded, fun w s => ⟨_, h.runs w s, ?_⟩⟩
  have hload : loadOperand f.mode w s = operand8 (lo w) s := by simp only [loadOperand, hm]
  have hd := branchPlan_run c (lo w) s
  rw [hload]
  refine ⟨fun ht => ?_, fun hf => ?_, sameMemory_of_eq hd.mem hd.rest.cfg, hd.rest⟩
  · have htaken : c s.regs.p = true := (hc _).mpr ht
    have hregs := hd.regs
    have hbus := hd.bus
    rw [if_pos htaken, add_sext_eq_ofInt] at hregs
    rw [htaken] at hbus
    exact ⟨hregs, hbus⟩
  · have huntaken : c s.regs.p = false := Bool.eq_false_iff.mpr (mt (hc _).mp hf)
    rw [branchPlan_run_untaken huntaken]
    exact ⟨rfl, rfl⟩

/-- Settles O53: each branch runs the branch plan on the flag of its condition. -/
theorem branches : Obligations.Branches :=
  ⟨Tabled.branchForm (c := condBpl) ⟨fun _ => rfl, rfl, fun _ _ => rfl⟩ rfl fun p => iff_of_eq (Bool.not_eq_true' p.n),
    Tabled.branchForm (c := condBmi) ⟨fun _ => rfl, rfl, fun _ _ => rfl⟩ rfl fun _ => Iff.rfl,
    Tabled.branchForm (c := condBvc) ⟨fun _ => rfl, rfl, fun _ _ => rfl⟩ rfl fun p => iff_of_eq (Bool.not_eq_true' p.v),
    Tabled.branchForm (c := condBvs) ⟨fun _ => rfl, rfl, fun _ _ => rfl⟩ rfl fun _ => Iff.rfl,
    Tabled.branchForm (c := condBcc) ⟨fun _ => rfl, rfl, fun _ _ => rfl⟩ rfl fun p => iff_of_eq (Bool.not_eq_true' p.c),
    Tabled.branchForm (c := condBcs) ⟨fun _ => rfl, rfl, fun _ _ => rfl⟩ rfl fun _ => Iff.rfl,
    Tabled.branchForm (c := condBne) ⟨fun _ => rfl, rfl, fun _ _ => rfl⟩ rfl fun p => iff_of_eq (Bool.not_eq_true' p.z),
    Tabled.branchForm (c := condBeq) ⟨fun _ => rfl, rfl, fun _ _ => rfl⟩ rfl fun _ => Iff.rfl⟩

end Sys2Proof.Claims
end

section
/-!
Flag instructions, NOP and the undocumented NOPs (46_flags_nop.md, 47_illegal.md): the ones without operand are internal forms of the
operation that writes one flag or nothing, the NOPs with an operand are read-class forms of the operation that takes the byte read and
leaves the registers.
-/

namespace Sys2Proof.Claims

open Sys2Proof.Machine

/-! ### The internal class has no operand (R173, R174) -/

theorem operandBytes_of_internal_table : ∀ o : Byte, (descriptor o).access = .internal →
    (descriptor o).mode.operandBytes = 0 := by decide

/-- An internal form has no operand byte. -/
theorem Tabled.operandBytes_of_internal {op : Operation} {illegal : Bool} {plan : Mode → Plan} {f : Form}
    (h : Tabled op .internal illegal plan f) : f.mode.operandBytes = 0 := by
  have hmode := operandBytes_of_internal_table f.opcode
  rw [h.described] at hmode
  exact hmode rfl

/-! ### The undocumented NOPs in the table (R143, R147) -/

theorem nopIdleForms_tabled : ∀ f ∈ nopIdleForms, Tabled .NOP .internal true (fun _ => internalPlan opIdle) f := by
  intro f hf
  fin_cases hf <;> exact ⟨fun _ => rfl, rfl, fun _ _ => rfl⟩

theorem nopReadForms_tabled : ∀ f ∈ nopReadForms, Tabled .NOP .read true (readPlan · opNop) f := by
  intro f hf
  fin_cases hf <;> exact ⟨fun _ => rfl, rfl, fun _ _ => rfl⟩

/-! ### The claim (R330 to R337, R371) -/

/-- Settles O54: each flag instruction and NOP is an implied internal operation, an undocumented NOP an internal form or, with an
operand, a read-class form whose effect ignores the byte read. -/
theorem flagsAndNop : Obligations.FlagsAndNop :=
  ⟨implied_internalForm (iop := opClc) ⟨fun _ => rfl, rfl, fun _ _ => rfl⟩ rfl,
    implied_internalForm (iop := opSec) ⟨fun _ => rfl, rfl, fun _ _ => rfl⟩ rfl,
    implied_internalForm (iop := opCli) ⟨fun _ => rfl, rfl, fun _ _ => rfl⟩ rfl,
    implied_internalForm (iop := opSei) ⟨fun _ => rfl, rfl, fun _ _ => rfl⟩ rfl,
    implied_internalForm (iop := opCld) ⟨fun _ => rfl, rfl, fun _ _ => rfl⟩ rfl,
    implied_internalForm (iop := opSed) ⟨fun _ => rfl, rfl, fun _ _ => rfl⟩ rfl,
    implied_internalForm (iop := opClv) ⟨fun _ => rfl, rfl, fun _ _ => rfl⟩ rfl,
    implied_internalForm (iop := opIdle) ⟨fun _ => rfl, rfl, fun _ _ => rfl⟩ rfl,
    fun f hf => (nopIdleForms_tabled f hf).internalForm (nopIdleForms_tabled f hf).operandBytes_of_internal,
    fun f hf => (nopReadForms_tabled f hf).readForm⟩

end Sys2Proof.Claims
end

section
/-!
The undocumented opcodes (47_illegal.md): each operation in the terms of the claims, ARR in both modes included, and, for every form
of a high-byte store at once, that it does what its claim says.
-/

namespace Sys2Proof.Claims

open Sys2Proof.Machine

/-! ### Combined read-modify-writes (R351 to R354, R357, R358)

The second operation writes N and Z over those of the first; the bit a shift leaves in C stays, unless an addition takes it in. -/

theorem opSlo_eq : opSlo = fun _ m r => (aslOf m, { intoA (r.a ||| aslOf m) r with
    p := { withNZ (r.a ||| aslOf m) r.p with c := topBit m } }) := by
  funext cfg m r
  simp only [opSlo, opAsl_eq, opOra_eq]
  rfl

theorem opRla_eq : opRla = fun _ m r => (rolOf m r.p.c, { intoA (r.a &&& rolOf m r.p.c) r with
    p := { withNZ (r.a &&& rolOf m r.p.c) r.p with c := topBit m } }) := by
  funext cfg m r
  simp only [opRla, opRol_eq, opAnd_eq]
  rfl

theorem opSre_eq : opSre = fun _ m r => (lsrOf m, { intoA (r.a ^^^ lsrOf m) r with
    p := { withNZ (r.a ^^^ lsrOf m) r.p with c := lowBit m } }) := by
  funext cfg m r
  simp only [opSre, opLsr_eq, opEor_eq]
  rfl

/-- Of the flags the rotate leaves, the addition reads only C and writes the others again. -/
theorem opRra_eq : opRra = fun cfg m r =>
    (rorOf m r.p.c, adcEffect cfg (rorOf m r.p.c) { r with p := { r.p with c := lowBit m } }) := by
  funext cfg m r
  simp only [opRra, opRor_eq, opAdc_eq]
  rfl

theorem opDcp_eq : opDcp = fun _ m r => (m - 1, compareEffect r.a (m - 1) r) := by
  funext _ m r
  exact congrArg (Prod.mk (m - 1)) (compare_eq r.a (m - 1) r)

theorem opIsc_eq : opIsc = fun cfg m r => (m + 1, sbcEffect cfg (m + 1) r) := by
  funext cfg m r
  rw [opIsc, opSbc_eq]

theorem sloForms_tabled : ∀ f ∈ sloForms, Tabled .SLO .readModifyWrite true (rmwPlan · opSlo) f := by
  intro f hf
  fin_cases hf <;> exact ⟨fun _ => rfl, rfl, fun _ _ => rfl⟩

theorem rlaForms_tabled : ∀ f ∈ rlaForms, Tabled .RLA .readModifyWrite true (rmwPlan · opRla) f := by
  intro f hf
  fin_cases hf <;> exact ⟨fun _ => rfl, rfl, fun _ _ => rfl⟩

theorem sreForms_tabled : ∀ f ∈ sreForms, Tabled .SRE .readModifyWrite true (rmwPlan · opSre) f := by
  intro f hf
  fin_cases hf <;> exact ⟨fun _ => rfl, rfl, fun _ _ => rfl⟩

theorem rraForms_tabled : ∀ f ∈ rraForms, Tabled .RRA .readModifyWrite true (rmwPlan · opRra) f := by
  intro f hf
  fin_cases hf <;> exact ⟨fun _ => rfl, rfl, fun _ _ => rfl⟩

theorem dcpForms_tabled : ∀ f ∈ dcpForms, Tabled .DCP .readModifyWrite true (rmwPlan · opDcp) f := by
  intro f hf
  fin_cases hf <;> exact ⟨fun _ => rfl, rfl, fun _ _ => rfl⟩

theorem iscForms_tabled : ∀ f ∈ iscForms, Tabled .ISC .readModifyWrite true (rmwPlan · opIsc) f := by
  intro f hf
  fin_cases hf <;> exact ⟨fun _ => rfl, rfl, fun _ _ => rfl⟩

/-- Settles O55: every form is a read-modify-write form of its combined operation. -/
theorem combinedRmw : Obligations.CombinedRmw :=
  ⟨fun f hf => (sloForms_tabled f hf).rmwForm opSlo_eq, fun f hf => (rlaForms_tabled f hf).rmwForm opRla_eq,
    fun f hf => (sreForms_tabled f hf).rmwForm opSre_eq, fun f hf => (rraForms_tabled f hf).rmwForm opRra_eq,
    fun f hf => (dcpForms_tabled f hf).rmwForm opDcp_eq, fun f hf => (iscForms_tabled f hf).rmwForm opIsc_eq⟩

/-! ### Combined reads (R356, R359 to R364, R370) -/

theorem opLax_eq : opLax = fun _ m r => { r with a := m, x := m, p := withNZ m r.p } := by
  funext _ m r
  exact setNZ_eq m _

theorem opLas_eq : opLas = fun _ m r =>
    { r with a := m &&& r.s, x := m &&& r.s, s := m &&& r.s, p := withNZ (m &&& r.s) r.p } := by
  funext _ m r
  exact setNZ_eq (m &&& r.s) _

theorem opAnc_eq : opAnc = fun _ m r =>
    { r with a := r.a &&& m, p := { withNZ (r.a &&& m) r.p with c := topBit (r.a &&& m) } } := by
  funext cfg m r
  simp only [opAnc, opAnd_eq, getLsbD_seven]
  rfl

theorem opAlr_eq : opAlr = fun _ m r =>
    { r with a := lsrOf (r.a &&& m), p := { withNZ (lsrOf (r.a &&& m)) r.p with c := lowBit (r.a &&& m) } } := by
  funext _ m r
  simp only [opAlr, shiftRight_eq_lsrOf, getLsbD_zero_eq_lowBit, setNZC_eq]
  rfl

theorem opAne_eq : opAne = fun cfg m r => intoA ((r.a ||| cfg.aneMagic) &&& r.x &&& m) r := by
  funext cfg m r
  exact setNZ_eq ((r.a ||| cfg.aneMagic) &&& r.x &&& m) _

theorem opLxa_eq : opLxa = fun cfg m r =>
    { intoA ((r.a ||| cfg.lxaMagic) &&& m) r with x := (r.a ||| cfg.lxaMagic) &&& m } := by
  funext cfg m r
  exact setNZ_eq ((r.a ||| cfg.lxaMagic) &&& m) _

theorem opSbx_eq : opSbx = fun _ m r =>
    { r with x := (r.a &&& r.x) - m,
             p := { withNZ ((r.a &&& r.x) - m) r.p with c := decide (m.toNat ≤ (r.a &&& r.x).toNat) } } := by
  funext _ m r
  exact setNZC_eq ((r.a &&& r.x) - m) _ _

/-! ### ARR (R361) -/

theorem arrBinary_eq (m : Byte) (r : Regs) : arrBinary (r.a &&& m) r = arrBinaryEffect m r := by
  simp only [arrBinary, shiftRight_eq_rorOf, getLsbD_seven (rorOf _ _), getLsbD_eq_decide_div _ 6, getLsbD_eq_decide_div _ 5]
  rfl

theorem toNat_shiftRight_four (t : Byte) : (t >>> 4).toNat = t.toNat / 16 := by
  rw [BitVec.toNat_ushiftRight, Nat.shiftRight_eq_div_pow]

theorem toNat_bitZero (t : Byte) : (t &&& 1).toNat = t.toNat % 2 := Nat.and_two_pow_sub_one_eq_mod t.toNat 1

/-- The high digit stands above the corrected low one, so the disjunction is a sum. -/
theorem digits_or_eq_ofNat (v : Byte) :
    (v &&& 0xF0) ||| ((v + 6) &&& 0x0F) = BitVec.ofNat 8 (v.toNat / 16 * 16 + (v.toNat + 6) % 16) := by
  have hlow : ((v + 6) &&& 0x0F).toNat = (v.toNat + 6) % 16 := by
    rw [toNat_lowDigit, BitVec.toNat_add]
    exact Nat.mod_mod_of_dvd _ (by decide)
  have hsum : v.toNat / 16 * 16 ||| (v.toNat + 6) % 16 = v.toNat / 16 * 16 + (v.toNat + 6) % 16 := by
    have hlt : (v.toNat + 6) % 16 < 2 ^ 4 := Nat.mod_lt _ (by decide)
    rw [← Nat.shiftLeft_eq _ 4, Nat.shiftLeft_add_eq_or_of_lt hlt]
  rw [← hsum, BitVec.ofNat_or, ofNat_highDigit, ← hlow, BitVec.ofNat_toNat, BitVec.setWidth_eq]

theorem getLsbD_six_xor (t v : Byte) : (t ^^^ v).getLsbD 6 = decide (t.toNat / 64 % 2 ≠ v.toNat / 64 % 2) := by
  rw [BitVec.getLsbD_xor, getLsbD_eq_decide_div, getLsbD_eq_decide_div, Bool.eq_iff_iff, Bool.xor_iff_ne, ne_eq, decide_eq_decide,
    decide_eq_true_eq]
  omega

theorem arrDecimal_eq (m : Byte) (r : Regs) : arrDecimal (r.a &&& m) r = arrDecimalEffect m r := by
  simp only [arrDecimal, arrDecimalEffect, shiftRight_eq_rorOf, digits_or_eq_ofNat, getLsbD_six_xor, toNat_lowDigit,
    toNat_shiftRight_four, toNat_bitZero, apply_ite (BitVec.ofNat 8), BitVec.ofNat_add, BitVec.ofNat_toNat, BitVec.setWidth_eq]
  rfl

theorem opArr_eq : opArr = fun cfg m r =>
    if cfg.decimalMode = true ∧ r.p.d = true then arrDecimalEffect m r else arrBinaryEffect m r := by
  funext cfg m r
  simp only [opArr, Bool.and_eq_true, arrDecimal_eq, arrBinary_eq]

/-! ### The table of the combined reads (R143, R147) -/

theorem laxForms_tabled : ∀ f ∈ laxForms, Tabled .LAX .read true (readPlan · opLax) f := by
  intro f hf
  fin_cases hf <;> exact ⟨fun _ => rfl, rfl, fun _ _ => rfl⟩

theorem lasForms_tabled : ∀ f ∈ lasForms, Tabled .LAS .read true (readPlan · opLas) f := by
  intro f hf
  fin_cases hf
  exact ⟨fun _ => rfl, rfl, fun _ _ => rfl⟩

theorem ancForms_tabled : ∀ f ∈ ancForms, Tabled .ANC .read true (readPlan · opAnc) f := by
  intro f hf
  fin_cases hf <;> exact ⟨fun _ => rfl, rfl, fun _ _ => rfl⟩

theorem alr_tabled : Tabled .ALR .read true (readPlan · opAlr) ⟨0x4B, .immediate, 2, fun w => .alrImm (lo w)⟩ :=
  ⟨fun _ => rfl, rfl, fun _ _ => rfl⟩

theorem arr_tabled : Tabled .ARR .read true (readPlan · opArr) ⟨0x6B, .immediate, 2, fun w => .arrImm (lo w)⟩ :=
  ⟨fun _ => rfl, rfl, fun _ _ => rfl⟩

theorem ane_tabled : Tabled .ANE .read true (readPlan · opAne) ⟨0x8B, .immediate, 2, fun w => .aneImm (lo w)⟩ :=
  ⟨fun _ => rfl, rfl, fun _ _ => rfl⟩

theorem lxa_tabled : Tabled .LXA .read true (readPlan · opLxa) ⟨0xAB, .immediate, 2, fun w => .lxaImm (lo w)⟩ :=
  ⟨fun _ => rfl, rfl, fun _ _ => rfl⟩

theorem sbx_tabled : Tabled .SBX .read true (readPlan · opSbx) ⟨0xCB, .immediate, 2, fun w => .sbxImm (lo w)⟩ :=
  ⟨fun _ => rfl, rfl, fun _ _ => rfl⟩

/-- Settles O56: every form is a read-class form of its combined operation. -/
theorem combinedReads : Obligations.CombinedReads :=
  ⟨fun f hf => opLax_eq ▸ (laxForms_tabled f hf).readForm, fun f hf => opLas_eq ▸ (lasForms_tabled f hf).readForm,
    fun f hf => opAnc_eq ▸ (ancForms_tabled f hf).readForm, opAlr_eq ▸ alr_tabled.readForm, opArr_eq ▸ arr_tabled.readForm,
    opAne_eq ▸ ane_tabled.readForm, opLxa_eq ▸ lxa_tabled.readForm, opSbx_eq ▸ sbx_tabled.readForm⟩

/-! ### High-byte stores (R366 to R369) -/

theorem indexOf_of_canCross {m : Mode} (h : canCross m = true) (r : Regs) :
    indexOf m r = if m = .absoluteX then r.x else r.y := by
  cases m with
  | absoluteX => rfl
  | absoluteY => rfl
  | indirectY => rfl
  | _ => exact absurd h Bool.false_ne_true

/-- A high-byte store whose action does `effect` to the registers, from what its plan leaves. -/
theorem Tabled.highByteForm {op : Operation} {f : Form} {reg : StoreOp} {act : State → State} {effect : Regs → Regs}
    (h : Tabled op .write true (highBytePlan · reg act) f) (hc : canCross f.mode = true)
    (hrun : ∀ w s, HighByteDone f.mode w reg act s ((highBytePlan f.mode reg act).run (loadOperand f.mode w s)))
    (heffect : ∀ s, (act s).regs = effect s.regs) : HighByteForm op reg effect f := by
  refine ⟨h.encoded, fun w s => ⟨_, _, _, h.runs w s, rfl, rfl, ?_⟩⟩
  have hd := hrun w s
  have hcrossed := hd.crosses
  rw [indexOf_of_canCross hc] at hcrossed
  refine ⟨hd.regs.trans (heffect _), hd.located, hd.stores, hd.rest, hd.high, hcrossed, fun hp => ?_⟩
  obtain ⟨-, hcrosses, hbase⟩ := hd.output hp
  exact ⟨hbase, hcrosses, fun hn => hd.bus hn hp⟩

/-- A high-byte store that moves no register. -/
theorem Tabled.highByteForm_id {op : Operation} {f : Form} {reg : StoreOp}
    (h : Tabled op .write true (highBytePlan · reg id) f) (hc : canCross f.mode = true) :
    HighByteForm op reg (fun r => r) f :=
  h.highByteForm hc (highBytePlan_run h.addressing_of_write hc reg) fun _ => rfl

theorem shaForms_tabled : ∀ f ∈ shaForms, Tabled .SHA .write true (highBytePlan · opSha id) f := by
  intro f hf
  fin_cases hf <;> exact ⟨fun _ => rfl, rfl, fun _ _ => rfl⟩

theorem shaForms_canCross : ∀ f ∈ shaForms, canCross f.mode = true := by
  intro f hf
  fin_cases hf <;> rfl

theorem shx_tabled : Tabled .SHX .write true (highBytePlan · opShx id) ⟨0x9E, .absoluteY, 5, fun w => .shxAbsY w⟩ :=
  ⟨fun _ => rfl, rfl, fun _ _ => rfl⟩

theorem shy_tabled : Tabled .SHY .write true (highBytePlan · opShy id) ⟨0x9C, .absoluteX, 5, fun w => .shyAbsX w⟩ :=
  ⟨fun _ => rfl, rfl, fun _ _ => rfl⟩

theorem tas_tabled : Tabled .TAS .write true (highBytePlan · opTas tasStack) ⟨0x9B, .absoluteY, 5, fun w => .tasAbsY w⟩ :=
  ⟨fun _ => rfl, rfl, fun _ _ => rfl⟩

/-- Settles O57: every form is a high-byte store of its register; only TAS acts on the registers, by moving its byte into S. -/
theorem highByteStores : Obligations.HighByteStores :=
  ⟨fun f hf => (shaForms_tabled f hf).highByteForm_id (shaForms_canCross f hf), shx_tabled.highByteForm_id rfl,
    shy_tabled.highByteForm_id rfl, tas_tabled.highByteForm rfl (highBytePlan_tas_run rfl rfl opTas) fun _ => rfl⟩

end Sys2Proof.Claims
end

section
/-!
Taking an NMI or an IRQ (60_exceptions.md): which sequence the boundary decision starts, what that sequence leaves, and why a line
that stays low sets no edge latch meanwhile.
-/

namespace Sys2Proof.Claims

open Sys2Proof.Machine

/-! ### The boundary decision (R405) -/

/-- `s` as the boundary decision leaves it when it starts the NMI sequence (R405). -/
def nmiTaken (s : State) : State := { s with ctl := { s.ctl with nmiPending := false } }

/-- A boundary at which a pending NMI or an IRQ line can be taken: no jammed core, not inhibited, no reset pending (R405). -/
structure Interruptible (s : State) : Prop where
  seq : s.seq = .instr
  inhibit : s.ctl.inhibit = false
  resPending : s.ctl.resPending = false

theorem Interruptible.boundary {s : State} (h : Interruptible s) :
    s.boundary = if s.ctl.nmiPending then (.nmi, nmiTaken s)
      else if s.ctl.irqLine && !s.regs.p.i then (.irq, s) else (.instr, s) := by
  have hjam : s.seq ≠ .jammed := by rw [h.seq]; exact nofun
  unfold State.boundary
  rw [if_neg hjam, if_neg (Bool.eq_false_iff.mp h.inhibit), if_neg (Bool.eq_false_iff.mp h.resPending)]
  rfl

theorem Interruptible.boundary_nmi {s : State} (h : Interruptible s) (hnmi : s.ctl.nmiPending = true) :
    s.boundary = (.nmi, nmiTaken s) := by
  rw [h.boundary, if_pos hnmi]

theorem Interruptible.boundary_irq {s : State} (h : Interruptible s) (hnmi : s.ctl.nmiPending = false)
    (hirq : s.ctl.irqLine = true) (hi : s.regs.p.i = false) : s.boundary = (.irq, s) := by
  have htaken : (s.ctl.irqLine && !s.regs.p.i) = true := by rw [hirq, hi]; rfl
  rw [h.boundary, if_neg (Bool.eq_false_iff.mp hnmi), if_pos htaken]

/-! ### The sequence (R411, R413) -/

theorem entryCycles_congr {s s' : State} (hr : s'.regs = s.regs) (vec : Word) (b : Bool) :
    entryCycles vec b s' = entryCycles vec b s := by
  simp only [entryCycles, hr]

/-- The sequence from a state that differs from `s` in the latches of the controller alone. -/
theorem interruptRows_done {s s' : State} (vec : Word) (hr : s'.regs = s.regs) (hm : s'.mem = s.mem) (hk : KeepsRest s s')
    (hin : s'.inputs = s.inputs) (htr : s'.trace = s.trace) : InterruptDone vec s (runRows (interruptRows vec) s') := by
  have hd := interruptRows_run vec s'
  refine ⟨hd.entry.congr_left hr hm hk, fun hn => ?_⟩
  have hn' : s'.NoWaits := by rwa [State.NoWaits, hin]
  have hbus := (hd.bus hn').congr htr.symm rfl
  rwa [entryCycles_congr hr, hr] at hbus

theorem runSequence_nmi_done {s : State} (hseq : s.seq = .instr) :
    InterruptDone nmiVector s ((nmiTaken s).runSequence .nmi) :=
  interruptRows_done nmiVector rfl rfl ⟨hseq.symm, rfl, rfl, rfl, rfl, rfl⟩ rfl rfl

theorem runSequence_irq_done {s : State} (hseq : s.seq = .instr) : InterruptDone irqVector s (s.runSequence .irq) :=
  interruptRows_done irqVector rfl rfl ⟨hseq.symm, rfl, rfl, rfl, rfl, rfl⟩ rfl rfl

/-! ### An edge latch while its line stays low (R402, R403) -/

/-- `pending` is a latch that no sample with its line low changes, nor the setting of `inhibit`. -/
structure EdgeLatch (line : Lines → Bool) (pending : Controller → Bool) : Prop where
  sample : ∀ l s, line l = false → pending (State.sample l s).ctl = pending s.ctl
  inhibit : ∀ c, pending { c with inhibit := true } = pending c

theorem nmi_edgeLatch : EdgeLatch Lines.nmi Controller.nmiPending where
  sample l s hl := by
    show (s.ctl.nmiPending || (l.nmi && !s.ctl.nmiPrev)) = s.ctl.nmiPending
    rw [hl, Bool.false_and, Bool.or_false]
  inhibit _ := rfl

/-- The line is low in every coming input. -/
def StaysLow (line : Lines → Bool) (s : State) : Prop := ∀ l ∈ s.inputs, line l = false

/-- From `s` to `t` a line that stays low stayed low, and its latch is as it was. -/
def HoldsLatch (line : Lines → Bool) (pending : Controller → Bool) (s t : State) : Prop :=
  StaysLow line s → StaysLow line t ∧ pending t.ctl = pending s.ctl

section
variable {line : Lines → Bool} {pending : Controller → Bool} (hidle : line Lines.idle = false) (he : EdgeLatch line pending)
include hidle he

theorem settleRead_holdsLatch (a : Word) (y : Bool) (ls : List Lines) (s : State) (hlow : ∀ l ∈ ls, line l = false) :
    StaysLow line (State.settleRead a y ls s) ∧ pending (State.settleRead a y ls s).ctl = pending s.ctl := by
  induction ls generalizing s with
  | nil => exact ⟨nofun, he.sample Lines.idle s hidle⟩
  | cons l ls ih =>
    obtain ⟨hl, hls⟩ := List.forall_mem_cons.mp hlow
    have hsample := he.sample l s hl
    simp only [State.settleRead]
    split
    · obtain ⟨hrest, hctl⟩ := ih (State.emitRead a y { s.sample l with inputs := ls }) hls
      rw [emitRead_ctl] at hctl
      exact ⟨hrest, hctl.trans hsample⟩
    · exact ⟨hls, hsample⟩

theorem readCycle_holdsLatch (a : Word) (y : Bool) (s : State) : HoldsLatch line pending s (s.readCycle a y) := by
  intro hlow
  have hd := settleRead_holdsLatch hidle he a y s.inputs (s.emitRead a y) hlow
  rwa [emitRead_ctl] at hd

theorem writeCycle_holdsLatch (a : Word) (v : Byte) (s : State) : HoldsLatch line pending s (s.writeCycle a v) := by
  intro hlow
  have hinputs : (s.emitWrite a v).inputs = s.inputs := accessWrite_inputs a v _
  have hctl : (s.emitWrite a v).ctl = s.ctl := accessWrite_ctl a v _
  have hhead : line ((s.emitWrite a v).inputs.headD Lines.idle) = false := by
    rw [hinputs]
    cases hi : s.inputs with
    | nil => exact hidle
    | cons l ls => exact hlow l (hi ▸ List.mem_cons_self)
  refine ⟨fun l hl => hlow l ?_, (he.sample _ _ hhead).trans (congrArg pending hctl)⟩
  rw [writeCycle_inputs] at hl
  exact List.mem_of_mem_tail hl

/-- The relation that the one induction over cycle tables carries to the sequences: a cycle samples the low line, waits or
not, and no action of a table writes an edge latch. -/
theorem holdsLatch_cycleRel : CycleRel (HoldsLatch line pending) where
  refl _ hlow := ⟨hlow, rfl⟩
  trans hst htu hlow := by
    obtain ⟨ht, hpending⟩ := hst hlow
    obtain ⟨hu, hpending'⟩ := htu ht
    exact ⟨hu, hpending'.trans hpending⟩
  read := readCycle_holdsLatch hidle he
  write := writeCycle_holdsLatch hidle he
  quiet hq hlow := by
    refine ⟨fun l hl => hlow l (hq.inputs ▸ hl), ?_⟩
    rcases hq.ctl with hc | hc
    · rw [hc]
    · rw [hc, he.inhibit]

end

/-- The NMI latch ends cleared when the line does not rise during the sequence. -/
theorem runSequence_nmi_latch {s : State} (hlow : ∀ l ∈ s.inputs, l.nmi = false) :
    ((nmiTaken s).runSequence .nmi).ctl.nmiPending = false :=
  ((holdsLatch_cycleRel rfl nmi_edgeLatch).sequence .nmi (nmiTaken s) hlow).2

/-! ### The claim -/

/-- Settles O9: the boundary decision starts the sequence, and the sequence is two reads at PC and the entry. -/
theorem interruptEntry : Obligations.InterruptEntry := by
  intro s hindex hseq hbus hinhibit hres
  have hs : Interruptible s := ⟨hseq, hinhibit, hres⟩
  refine ⟨fun hnmi => ?_, fun hnmi hirq hi => ?_⟩
  · have hd := runSequence_nmi_done hseq
    exact ⟨_, step_sequence (q := .nmi) hindex hbus nofun (hs.boundary_nmi hnmi), hd.entry, hd.bus, runSequence_nmi_latch⟩
  · have hd := runSequence_irq_done hseq
    exact ⟨_, step_sequence (q := .irq) hindex hbus nofun (hs.boundary_irq hnmi hirq hi), hd.entry, hd.bus⟩

end Sys2Proof.Claims
end

section
/-!
The reset sequence (70_reset_and_hazards.md): when the boundary decision starts it, what it leaves, and why a fetch follows it.
-/

namespace Sys2Proof.Claims

open Sys2Proof.Machine

/-! ### The boundary decision (R405) -/

/-- `s` as the boundary decision leaves it when it starts the reset sequence (R405). -/
def resetTaken (s : State) : State := { s with ctl := { s.ctl with resPending := false } }

/-- A pending reset is taken by a jammed core, inhibited or not, and at a boundary that is not inhibited. -/
theorem boundary_of_resPending {s : State} (hres : s.ctl.resPending = true)
    (hs : s.seq = .jammed ∨ (s.seq = .instr ∧ s.ctl.inhibit = false)) : s.boundary = (.reset, resetTaken s) := by
  unfold State.boundary
  rcases hs with hjam | ⟨hseq, hinhibit⟩
  · rw [if_pos hjam, if_pos hres]
    rfl
  · have hjam : s.seq ≠ .jammed := by rw [hseq]; exact nofun
    rw [if_neg hjam, if_neg (Bool.eq_false_iff.mp hinhibit), if_pos hres]
    rfl

/-! ### The sequence (R450, R451) -/

theorem runSequence_reset_done (s : State) :
    ResetDone { resetTaken s with seq := .instr } ((resetTaken s).runSequence .reset) :=
  resetRows_run { resetTaken s with seq := .instr }

/-! ### A bus cycle stays outstanding (R45, R57) -/

/-- After the first tick there is a last bus cycle: if `s` has one, so has `t`. -/
def KeepsBusCycle (s t : State) : Prop := s.lastBus ≠ none → t.lastBus ≠ none

theorem emitRead_lastBus_ne_none (a : Word) (y : Bool) (s : State) : (s.emitRead a y).lastBus ≠ none := by
  rw [emitRead_lastBus]
  exact nofun

/-- A read keeps the cycle it emitted, a read that waits the cycle it repeated. -/
theorem settleRead_keepsBusCycle (a : Word) (y : Bool) (ls : List Lines) (s : State) :
    KeepsBusCycle s (State.settleRead a y ls s) := by
  induction ls generalizing s with
  | nil => exact id
  | cons l ls ih =>
    intro hs
    simp only [State.settleRead]
    split
    · exact ih _ (emitRead_lastBus_ne_none a y _)
    · exact hs

theorem keepsBusCycle_cycleRel : CycleRel KeepsBusCycle where
  refl _ := id
  trans hst htu := htu ∘ hst
  read a y s _ := settleRead_keepsBusCycle a y s.inputs _ (emitRead_lastBus_ne_none a y s)
  write a v s _ := by
    rw [writeCycle_lastBus]
    exact nofun
  quiet hq hs := by rwa [hq.lastBus]

/-- The sequence sets `inhibit`, so the next boundary decision is to fetch whatever is pending (R407). -/
theorem runSequence_reset_fetchesNext {s : State} (hindex : s.t = 0) (hbus : s.lastBus ≠ none) :
    FetchesNext ((resetTaken s).runSequence .reset) :=
  have hrest := (runSequence_reset_done s).rest
  ⟨hrest.index.trans hindex, hrest.seq, keepsBusCycle_cycleRel.sequence .reset (resetTaken s) hbus, .inl hrest.inhibit⟩

/-! ### The edge latches (R402, R403) -/

theorem res_edgeLatch : EdgeLatch Lines.res Controller.resPending where
  sample l s hl := by
    show (s.ctl.resPending || (l.res && !s.ctl.resPrev)) = s.ctl.resPending
    rw [hl, Bool.false_and, Bool.or_false]
  inhibit _ := rfl

/-- The RES latch, which the boundary decision cleared, stays cleared while its line stays low. -/
theorem runSequence_reset_resPending {s : State} (hlow : ∀ l ∈ s.inputs, l.res = false) :
    ((resetTaken s).runSequence .reset).ctl.resPending = false :=
  ((holdsLatch_cycleRel rfl res_edgeLatch).sequence .reset (resetTaken s) hlow).2

/-- A reset does not take the NMI latch, which stays as it was while its line stays low. -/
theorem runSequence_reset_nmiPending {s : State} (hlow : ∀ l ∈ s.inputs, l.nmi = false) :
    ((resetTaken s).runSequence .reset).ctl.nmiPending = s.ctl.nmiPending :=
  ((holdsLatch_cycleRel rfl nmi_edgeLatch).sequence .reset (resetTaken s) hlow).2

/-! ### The claim -/

/-- Settles O8: the boundary decision starts the reset sequence, whose rows are all reads; a cycle table touches an edge latch only
by sampling its line. -/
theorem resetSequence : Obligations.ResetSequence := by
  intro s hindex hbus hres hs
  have hstep := step_sequence (q := .reset) hindex hbus nofun (boundary_of_resPending hres hs)
  have hd := runSequence_reset_done s
  have hrest := hd.rest
  exact ⟨_, hstep, hd.regs, hd.low, hd.high, sameMemory_of_eq hd.mem hrest.cfg, hrest.seq, hrest.index.trans hindex, hrest.inhibit,
    runSequence_reset_fetchesNext hindex hbus, hrest.hooks, hrest.cfg, hd.bus, runSequence_reset_resPending,
    runSequence_reset_nmiPending⟩

end Sys2Proof.Claims
end

section
/-!
The decoder and the encoder (30_encoding.md): the bytes of an instruction are a complete instruction for the decoder, the encoder gives
back the bytes that were decoded, and the opcode byte alone fixes how many there are.
-/

namespace Sys2Proof.Claims

open Sys2Proof.Machine

/-! ### Decoding what was encoded (R140 to R142) -/

/-- Every instruction's bytes are its own: an opcode with no, one or two operand bytes. -/
theorem ownBytes (i : Instr) : Laws.OwnBytes.Statement i := by
  cases i
  all_goals first
    | exact Laws.OwnBytes.ofBytes0 rfl rfl rfl
    | exact Laws.OwnBytes.ofBytes1 rfl rfl rfl
    | exact Laws.OwnBytes.ofBytes2 rfl rfl (congrArg _ (pair_hi_lo _))

theorem operandBytes_le_two (m : Mode) : m.operandBytes ≤ 2 := by cases m <;> decide

/-- The decoder takes the opcode and as many operand bytes as its mode has, and leaves what follows them (R142, R148). -/
theorem decode_complete (o : Byte) (operands rest : List Byte) (h : operands.length = (descriptor o).mode.operandBytes) :
    decode (o :: (operands ++ rest)) = .ok (decodeOp o (operands.getD 0 0) (operands.getD 1 0), rest) := by
  have hle := operandBytes_le_two (descriptor o).mode
  unfold decode
  dsimp only
  rw [← h] at hle ⊢
  match operands, hle with
  | [], _ => rfl
  | [_], _ => rfl
  | [_, _], _ => rfl

theorem encode_cons (i : Instr) : encode i = i.opcode :: (encode i).tail := by
  cases i <;> rfl

/-- Settles O1: an instruction's bytes are its opcode and as many operand bytes as the decoder takes. -/
theorem decodeOfEncode : Obligations.DecodeOfEncode := by
  intro i rest
  obtain ⟨hlength, hdecodes⟩ := ownBytes i
  rw [encode_cons] at hlength hdecodes ⊢
  have hoperands : (encode i).tail.length = (descriptor i.opcode).mode.operandBytes := by
    rw [List.length_cons, Nat.add_comm] at hlength
    exact Nat.add_left_cancel hlength
  rw [List.getD_cons_succ, List.getD_cons_succ] at hdecodes
  rw [List.cons_append, decode_complete _ _ _ hoperands, hdecodes]

/-! ### Encoding what was decoded (R144) -/

theorem encode_decodeOp (o b1 b2 : Byte) :
    encode (decodeOp o b1 b2) = o :: [b1, b2].take (descriptor o).mode.operandBytes := by
  have hword : ∀ o : Byte, [o, lo (pair b2 b1), hi (pair b2 b1)] = [o, b1, b2] := fun o => by rw [lo_pair, hi_pair]
  refine forall_byte (P := fun o => encode (decodeOp o b1 b2) = o :: [b1, b2].take (descriptor o).mode.operandBytes)
    (fun k hk => ?_) o
  interval_cases k <;> first | rfl | exact hword _

/-- The decoder's outcomes (R144, R148): too few operand bytes, or an instruction and what follows its operand bytes. -/
theorem decode_cons_cases (o : Byte) (rest : List Byte) :
    (rest.length < (descriptor o).mode.operandBytes ∧ ∃ missing, decode (o :: rest) = .error (.truncated missing)) ∨
    ∃ operands tail, rest = operands ++ tail ∧ operands.length = (descriptor o).mode.operandBytes := by
  rcases Nat.lt_or_ge rest.length (descriptor o).mode.operandBytes with hlt | hge
  · refine .inl ⟨hlt, ?_⟩
    have hle := operandBytes_le_two (descriptor o).mode
    unfold decode
    dsimp only
    generalize (descriptor o).mode.operandBytes = n at hlt hle
    match n, rest, hlt, hle with
    | 1, [], _, _ => exact ⟨_, rfl⟩
    | 2, [], _, _ => exact ⟨_, rfl⟩
    | 2, [_], _, _ => exact ⟨_, rfl⟩
  · exact .inr ⟨_, _, (List.take_append_drop _ rest).symm, List.length_take_of_le hge⟩

/-- Settles O2: the encoder gives back the opcode and the operand bytes the decoder took. -/
theorem encodeOfDecode : Obligations.EncodeOfDecode := by
  rintro (_ | ⟨o, bytes⟩) i rest h
  · exact absurd h nofun
  obtain ⟨-, _, herror⟩ | ⟨operands, tail, rfl, hlength⟩ := decode_cons_cases o bytes
  · rw [herror] at h
    exact absurd h nofun
  rw [decode_complete o operands tail hlength] at h
  obtain ⟨rfl, rfl⟩ := Prod.mk.inj (Except.ok.inj h)
  have hle := operandBytes_le_two (descriptor o).mode
  rw [encode_decodeOp, ← hlength, List.cons_append]
  rw [← hlength] at hle
  match operands, hle with
  | [], _ => rfl
  | [_], _ => rfl
  | [_, _], _ => rfl

/-! ### The length (R148) -/

/-- Settles O3: the decoder looks at the opcode's mode and at the number of bytes alone. -/
theorem lengthFromOpcode : Obligations.LengthFromOpcode := by
  intro o rest
  refine ⟨rfl, fun henough => ?_, fun hshort => ?_⟩
  · obtain ⟨hlt, -⟩ | ⟨operands, tail, rfl, hlength⟩ := decode_cons_cases o rest
    · exact absurd hlt (Nat.not_lt.mpr (Nat.add_le_add_iff_left.mp henough))
    · refine ⟨_, ?_, decodeOp_opcode o (operands.getD 0 0) (operands.getD 1 0)⟩
      rw [decode_complete o operands tail hlength, ← hlength, List.drop_left]
  · obtain ⟨-, herror⟩ | ⟨operands, tail, rfl, hlength⟩ := decode_cons_cases o rest
    · exact herror
    · rw [Descriptor.length, ← hlength, List.length_append] at hshort
      omega

/-! ### The table (R143, R146, R147, R149, R150) -/

/-- Settles O4: a sanity statement about the 256 descriptors, each of them evaluated. -/
theorem tableShape : Obligations.TableShape := by
  refine ⟨fun b => ⟨descriptor_opcode b, ?_⟩, descriptorTable_length, ?_, ?_, ?_, ?_⟩
  · revert b
    decide
  all_goals decide

/-- Settles O5: a sanity statement about ten words, each of them decoded. -/
theorem knownWords : Obligations.KnownWords := by
  unfold Obligations.KnownWords
  exact ⟨rfl, rfl, rfl, rfl, rfl, rfl, rfl, rfl, rfl, rfl⟩

end Sys2Proof.Claims
end

section
/-!
A step as the rows of one cycle table: the instruction fetched runs the rows that the sequencer has for its opcode, so the fetch, the
operand fetches and the meaning are the table of the instruction.
-/

namespace Sys2Proof.Machine

/-! ### The rows of an instruction (R144, R172) -/

/-- The plan of an instruction without fetched operand begins at once. -/
theorem planFor_start_of_no_fetches (o : Byte) :
    operandFetches (descriptor o) = 0 → (planFor (descriptor o)).start = id := by
  refine forall_byte (P := fun o => operandFetches (descriptor o) = 0 → (planFor (descriptor o)).start = id) (fun k hk => ?_) o
  interval_cases k <;> first | exact fun _ => rfl | exact fun h => absurd h (by decide)

/-- The instruction fetched is decoded from the operand bytes in the latches, so far as they were fetched. -/
theorem fetched_eq_decodeOp (s : State) : ∃ b1 b2, s.fetched = decodeOp s.latch.ir b1 b2 ∧
    (1 ≤ operandFetches (descriptor s.latch.ir) → b1 = s.latch.adl) ∧
    (operandFetches (descriptor s.latch.ir) = 2 → b2 = s.latch.adh) := by
  unfold State.fetched operandFetches
  dsimp only
  by_cases hjsr : (descriptor s.latch.ir).op = .JSR
  · obtain ⟨hbytes, -⟩ := operandFetches_jsr _ hjsr
    rw [if_pos hjsr, if_pos hjsr, hbytes]
    exact ⟨_, _, rfl, fun _ => rfl, nofun⟩
  · rw [if_neg hjsr, if_neg hjsr]
    rcases (descriptor s.latch.ir).mode.operandBytes with _ | _ | n
    · exact ⟨_, _, rfl, nofun, nofun⟩
    · exact ⟨_, _, rfl, fun _ => rfl, nofun⟩
    · exact ⟨_, _, rfl, fun _ => rfl, fun _ => rfl⟩

/-- The operand fetches leave the latches as the meaning of an instruction latches its operand. -/
theorem latchOperand_operandRows {n : Nat} (hn : n ≤ 2) (u : State) {b1 b2 : Byte}
    (h1 : 1 ≤ n → b1 = (runRows (operandRows n) u).latch.adl) (h2 : n = 2 → b2 = (runRows (operandRows n) u).latch.adh) :
    latchOperand n b1 b2 (runRows (operandRows n) u) = runRows (operandRows n) u := by
  match n, hn with
  | 0, _ => rfl
  | 1, _ => rw [h1 (Nat.le_refl 1)]; rfl
  | 2, _ => rw [h1 (Nat.le_succ 1), h2 rfl]; rfl

/-- The operand fetches and then the plan are the table from cycle 2 on. -/
theorem planFor_run_operandRows (o : Byte) (u : State) :
    (planFor (descriptor o)).run (runRows (operandRows (operandFetches (descriptor o))) u) = runRows (instrRows o) u := by
  unfold instrRows
  dsimp only
  have hstart := planFor_start_of_no_fetches o
  have hle := operandFetches_le (descriptor o)
  generalize operandFetches (descriptor o) = n at hstart hle
  match n, hle with
  | 0, _ => rw [Plan.run, hstart rfl]; rfl
  | 1, _ => rfl
  | 2, _ => rfl

/-- The instruction fetched, run after its fetches, is its table from cycle 2 on, run after the opcode fetch. -/
theorem exec_fetched_eq_rows (s : State) :
    exec s.fetchInstr.fetched s.fetchInstr =
      .next (runRows (instrRows (fetchRow.run { s with seq := .instr }).latch.ir) (fetchRow.run { s with seq := .instr })) := by
  have hfetch : s.fetchInstr = runRows (operandRows (operandFetches (descriptor (fetchRow.run { s with seq := .instr }).latch.ir)))
    (fetchRow.run { s with seq := .instr }) := rfl
  rw [hfetch]
  generalize fetchRow.run { s with seq := .instr } = u
  have hle := operandFetches_le (descriptor u.latch.ir)
  obtain ⟨-, -, -, -, -, -, -, hir, -, -⟩ := operandRows_spec hle u
  obtain ⟨b1, b2, hfetched, h1, h2⟩ := fetched_eq_decodeOp (runRows (operandRows (operandFetches (descriptor u.latch.ir))) u)
  rw [hir] at hfetched h1 h2
  rw [hfetched, followsPlan, latchOperand_operandRows hle u h1 h2, planFor_run_operandRows]

/-! ### A step between sequences (R404, R405) -/

/-- A whole sequence from the boundary decision that chose it. -/
def State.runWhole (q : Seq) (s : State) : State :=
  match q with
  | .instr => runRows (instrRows (fetchRow.run { s with seq := .instr }).latch.ir) (fetchRow.run { s with seq := .instr })
  | q => s.runSequence q

/-- A step between sequences is the boundary decision and the whole table of the sequence it starts. -/
theorem step_eq_runWhole {s : State} (ht : s.t = 0) :
    step s = .next (s.firstTick.boundary.2.runWhole s.firstTick.boundary.1) := by
  unfold step
  rw [if_pos ht]
  rcases s.firstTick.boundary with ⟨q, s1⟩
  cases q with
  | instr => exact exec_fetched_eq_rows s1
  | irq => rfl
  | nmi => rfl
  | reset => rfl
  | jammed => rfl

end Sys2Proof.Machine
end

section
/-!
What every step keeps (R91, R93, R404 to R408): one relation over bus cycles at a time, carried over the table of the whole step.
-/

namespace Sys2Proof.Machine

/-! ### The row that opens a table -/

/-- The row of cycle 1 of sequence `q`: a read that always happens, with SYNC in the sequences that begin with an opcode fetch (R88). -/
structure Opening (q : Seq) (r : Row) : Prop where
  read : r.value = none
  happens : ∀ s, r.happens s = true
  quiet : ∀ s, Quiet s (r.act s)
  sync : r.sync = true ↔ q ≠ .reset ∧ q ≠ .jammed

/-- Rows after cycle 1: quiet, and without SYNC (R88). -/
def LaterRows (rs : List Row) : Prop := QuietRows rs ∧ ∀ r ∈ rs, r.sync = false

theorem QuietRows.of_local {rs : List Row} (h : LocalRows rs) : QuietRows rs := fun r hr => (h r hr).act.quiet

theorem instrRows_unsynced : ∀ o : Byte, (instrRows o).all (fun r => !r.sync) = true := by decide

theorem instrRows_later (o : Byte) : LaterRows (instrRows o) :=
  ⟨.of_local (instrRows_local o), fun r hr => by simpa using List.all_eq_true.mp (instrRows_unsynced o) r hr⟩

theorem sequenceRows_opening {q : Seq} (hq : q ≠ .instr) (cfg : Config) :
    ∃ r rs, sequenceRows q cfg = r :: rs ∧ Opening q r ∧ LaterRows rs := by
  have htable := sequenceRows_quiet q cfg
  have hpc : Opening .reset (rd atPc id) := ⟨rfl, fun _ => rfl, Quiet.refl, nofun, fun h => absurd rfl h.1⟩
  cases q with
  | instr => exact absurd rfl hq
  | irq => exact ⟨_, _, rfl, ⟨rfl, fun _ => rfl, Quiet.refl, fun _ => ⟨nofun, nofun⟩, fun _ => rfl⟩, htable.tail, by decide⟩
  | nmi => exact ⟨_, _, rfl, ⟨rfl, fun _ => rfl, Quiet.refl, fun _ => ⟨nofun, nofun⟩, fun _ => rfl⟩, htable.tail, by decide⟩
  | jammed => exact ⟨_, _, rfl, ⟨rfl, fun _ => rfl, Quiet.refl, nofun, fun h => absurd rfl h.2⟩, htable.tail, by decide⟩
  | reset =>
    unfold sequenceRows resetRows at htable ⊢
    dsimp only at htable ⊢
    split at htable
    · rename_i h7
      rw [if_pos h7]
      exact ⟨_, _, rfl, hpc, htable.tail, by decide⟩
    · rename_i h7
      rw [if_neg h7]
      exact ⟨_, _, rfl, hpc, htable.tail, by decide⟩

/-- A whole sequence is its opening row and the later rows. -/
theorem runWhole_opening (q : Seq) (s : State) : ∃ r rs, s.runWhole q = runRows rs (r.run { s with seq := restingSeq q }) ∧
    Opening q r ∧ LaterRows rs := by
  by_cases hq : q = .instr
  · rw [hq]
    exact ⟨fetchRow, _, rfl, ⟨rfl, fun _ => rfl, fetchRow_quiet, fun _ => ⟨nofun, nofun⟩, fun _ => rfl⟩, instrRows_later _⟩
  · obtain ⟨r, rs, hrows, hr, hrs⟩ := sequenceRows_opening hq s.cfg
    refine ⟨r, rs, ?_, hr, hrs⟩
    have hrun : s.runWhole q = s.runSequence q := by cases q <;> first | rfl | exact absurd rfl hq
    rw [hrun, State.runSequence, hrows, runRows_cons, if_pos (hr.happens _)]

/-- The state in which a step's table begins: the boundary decision made, `seq` as it stays between sequences. -/
def State.decided (s : State) : State := { s.firstTick.boundary.2 with seq := restingSeq s.firstTick.boundary.1 }

/-- A step between sequences: the opening row, then the later rows. -/
theorem step_opening {s t : State} (ht : s.t = 0) (h : step s = .next t) : ∃ r rs, t = runRows rs (r.run s.decided) ∧
    Opening s.firstTick.boundary.1 r ∧ LaterRows rs := by
  rw [step_eq_runWhole ht, Host.Outcome.next.injEq] at h
  rw [← h]
  exact runWhole_opening _ _

/-- What every cycle and every quiet action keeps, every step keeps. -/
theorem CycleRel.step {R : State → State → Prop} (hR : CycleRel R) {s t : State} (ht : s.t = 0) (h : step s = .next t) :
    R s.decided t := by
  obtain ⟨r, rs, rfl, hr, hrs, -⟩ := step_opening ht h
  exact hR.trans (hR.row hr.quiet _) (hR.rows hrs _)

/-! ### Relations on the bus cycles one by one (R91, R93) -/

/-- A reflexive and transitive relation kept by every bus cycle with the input that follows it, and by every quiet action. -/
structure BusRel (R : State → State → Prop) : Prop where
  refl : ∀ s, R s s
  trans : ∀ {s t u}, R s t → R t u → R s u
  read : ∀ a y s, R s (s.emitRead a y).arrive
  write : ∀ a v s, R s (s.emitWrite a v).arrive
  quiet : ∀ {s t}, Quiet s t → R s t

/-- Settling a read is the arrival of an input and, for every wait, the read and the arrival of an input again (R93). -/
theorem BusRel.settleRead {R : State → State → Prop} (hR : BusRel R) (a : Word) (y : Bool) (ls : List Lines) (s : State)
    (hi : s.inputs = ls) : R s.arrive (State.settleRead a y ls s) := by
  induction ls generalizing s with
  | nil =>
    rw [State.settleRead, State.arrive, hi]
    exact hR.quiet (quiet_latch _)
  | cons l ls ih =>
    have harrive : s.arrive = { s.sample l with inputs := ls } := by rw [State.arrive, hi]; rfl
    rw [State.settleRead]
    split
    · rw [← harrive]
      refine hR.trans (hR.read a y _) (ih _ ?_)
      rw [emitRead_inputs, harrive]
    · rw [harrive]
      exact hR.quiet (quiet_latch _)

theorem BusRel.cycleRel {R : State → State → Prop} (hR : BusRel R) : CycleRel R where
  refl := hR.refl
  trans := hR.trans
  read a y s := hR.trans (hR.read a y s) (hR.settleRead a y _ _ (emitRead_inputs a y s))
  write := hR.write
  quiet := hR.quiet

end Sys2Proof.Machine
end

section
/-!
Rules over every step: it completes, it keeps the state well kept, it loses no pending interrupt, it samples the inputs once per bus
cycle, and the memory map sees every cycle.
-/

namespace Sys2Proof.Claims

open Sys2Proof.Machine

/-! ### Every step completes, and runs the instruction it fetches (R11, R35, R172, R400) -/

theorem exec_completes (i : Instr) (s : State) : ∃ t, exec i s = .next t := by
  obtain ⟨p, s0, -, -, hrun⟩ := exec_runs i s
  exact ⟨_, hrun⟩

theorem step_completes (s : State) : ∃ t, step s = .next t := by
  by_cases ht : s.t = 0
  · exact ⟨_, step_eq_runWhole ht⟩
  · exact ⟨s.resume, if_neg ht⟩

/-- Settles O7: a step resumes a sequence or runs a whole one, and a meaning is the run of its plan. -/
theorem nothingStops : Obligations.NothingStops := ⟨step_completes, exec_completes⟩

/-- Settles O6: at a boundary that fetches, the step runs the instruction held at PC or, whatever is read, the one fetched. -/
theorem stepRunsDecoded : Obligations.StepRunsDecoded := by
  refine ⟨fun s i => step_of_holdsAtPc, fun s h => ⟨_, _, step_of_fetchesNext h, fetches_of_opcode h ?_⟩⟩
  rw [fetched_opcode]
  exact fetchInstr_done (inhibitCleared s)

/-! ### The invariant (R102, R106, R404) -/

/-- What of the invariant a cycle keeps: the array stays canonical, the parameters, the hooks and the cycle index stay, and the running
sequence changes at most to the jammed state. -/
structure KeepsInv (s t : State) : Prop where
  wf : Memory.wf s.mem = true → Memory.wf t.mem = true
  cfg : t.cfg = s.cfg
  hooks : t.hooks = s.hooks
  index : t.t = s.t
  seq : t.seq = s.seq ∨ t.seq = .jammed

theorem keepsInv_cycleRel : CycleRel KeepsInv where
  refl _ := ⟨id, rfl, rfl, rfl, .inl rfl⟩
  trans h h' := ⟨h'.wf ∘ h.wf, h'.cfg.trans h.cfg, h'.hooks.trans h.hooks, h'.index.trans h.index,
    h'.seq.elim (fun e => e ▸ h.seq) .inr⟩
  read a y s := ⟨by simp, by simp, by simp, by simp, .inl (by simp)⟩
  write a v s := ⟨writeCycle_wf a v, by simp, by simp, by simp, .inl (by simp)⟩
  quiet h := ⟨fun hw => h.mem ▸ hw, h.cfg, h.hooks, h.t, h.seq⟩

theorem restingSeq_cases (q : Seq) : restingSeq q = .instr ∨ restingSeq q = .jammed := by cases q <;> decide

/-- The input of tick 1 changes the controller and the inputs to come only (R94). -/
theorem firstTick_frame (s : State) : s.firstTick.mem = s.mem ∧ s.firstTick.cfg = s.cfg ∧ s.firstTick.hooks = s.hooks ∧
    s.firstTick.t = s.t ∧ s.firstTick.trace = s.trace ∧ s.firstTick.hookCalls = s.hookCalls := by
  unfold State.firstTick
  split <;> exact ⟨rfl, rfl, rfl, rfl, rfl, rfl⟩

theorem boundary_hookCalls (s : State) : s.boundary.2.hookCalls = s.hookCalls := by
  unfold State.boundary
  repeat' split
  all_goals rfl

theorem decided_frame (s : State) : s.decided.mem = s.mem ∧ s.decided.cfg = s.cfg ∧ s.decided.hooks = s.hooks ∧ s.decided.t = s.t ∧
    s.decided.trace = s.trace ∧ s.decided.hookCalls = s.hookCalls := by
  obtain ⟨hmem, hcfg, hhooks, ht, htrace, hcalls⟩ := firstTick_frame s
  obtain ⟨-, -, -, bt, bmem, bhooks, bcfg, -, btrace, -⟩ := boundary_frame s.firstTick
  exact ⟨bmem.trans hmem, bcfg.trans hcfg, bhooks.trans hhooks, bt.trans ht, btrace.trans htrace,
    (boundary_hookCalls _).trans hcalls⟩

/-- Settles O15: the boundary decision leaves the state at rest or jammed, and the table of the step keeps the rest. -/
theorem invKeptByStep : Obligations.InvKeptByStep := by
  rintro s t ⟨hwf, hcfg, hhooks, ht, -⟩ h
  have hk := keepsInv_cycleRel.step ht h
  obtain ⟨dmem, dcfg, dhooks, dt, -⟩ := decided_frame s
  refine ⟨hk.wf (by rwa [dmem]), by rwa [hk.cfg, dcfg], by rwa [hk.hooks, dhooks], by rw [hk.index, dt, ht], ?_⟩
  exact hk.seq.elim (fun e => e ▸ restingSeq_cases _) .inr

/-- Settles O14: the state after reset, each of its parts evaluated. -/
theorem invAtReset : Obligations.InvAtReset := by
  unfold Obligations.InvAtReset State.Inv
  decide

/-! ### The edge latches (R402, R403, R408) -/

/-- Settles O12: by induction on the samples; one sample sets the latch when its line is high and was low. -/
theorem edgeDetection : Obligations.EdgeDetection := by
  intro ls
  induction ls with
  | nil => exact fun s => ⟨by simp [risesFrom], by simp [risesFrom], rfl, rfl⟩
  | cons l ls ih =>
    intro s
    obtain ⟨hnmi, hres, hnmiPrev, hresPrev⟩ := ih (s.sample l)
    have hlast : ∀ (f : Lines → Bool) (b : Bool), ((l :: ls).map f).getLastD b = (ls.map f).getLastD (f l) := fun f b =>
      List.getLastD_cons
    refine ⟨?_, ?_, (hlast _ _).symm ▸ hnmiPrev, (hlast _ _).symm ▸ hresPrev⟩
    · rw [List.foldl_cons, hnmi]
      simp [risesFrom, or_assoc, and_comm]
    · rw [List.foldl_cons, hres]
      simp [risesFrom, or_assoc, and_comm]

/-- A pending NMI and a pending reset stay pending. -/
def KeepsPending (s t : State) : Prop :=
  (s.ctl.nmiPending = true → t.ctl.nmiPending = true) ∧ (s.ctl.resPending = true → t.ctl.resPending = true)

theorem keepsPending_busRel : BusRel KeepsPending where
  refl _ := ⟨id, id⟩
  trans h h' := ⟨h'.1 ∘ h.1, h'.2 ∘ h.2⟩
  read a y s := by constructor <;> intro h <;> simp [State.arrive, h]
  write a v s := by constructor <;> intro h <;> simp [State.arrive, State.emitWrite, h]
  quiet h := by rcases h.ctl with hc | hc <;> rw [KeepsPending, hc] <;> exact ⟨id, id⟩

/-- The decision clears the NMI latch only when it takes it, and the RES latch only when it takes that (R405). -/
theorem boundary_pending (s : State) :
    (s.ctl.nmiPending = true → s.boundary.2.ctl.nmiPending = true ∨
      (s.seq ≠ .jammed ∧ s.ctl.inhibit = false ∧ s.ctl.resPending = false)) ∧
    (s.ctl.resPending = true → s.boundary.2.ctl.resPending = true ∨ s.seq = .jammed ∨ s.ctl.inhibit = false) := by
  unfold State.boundary
  repeat' split
  all_goals simp_all

/-- Settles O11: after the boundary decision nothing clears a latch. -/
theorem pendingIsKept : Obligations.PendingIsKept := by
  intro s t ht hbus h
  obtain ⟨knmi, kres⟩ := keepsPending_busRel.cycleRel.step ht h
  obtain ⟨bnmi, bres⟩ := boundary_pending s
  have hdecided : s.decided.ctl = s.boundary.2.ctl := by rw [State.decided, firstTick_eq hbus]
  rw [hdecided] at knmi kres
  exact ⟨fun hs hlost => (bnmi hs).resolve_left fun hk => Bool.false_ne_true (hlost.symm.trans (knmi hk)),
    fun hs hlost => (bres hs).resolve_left fun hk => Bool.false_ne_true (hlost.symm.trans (kres hk))⟩

/-! ### The jammed tick (R56, R372, R418) -/

/-- Settles O10: without a pending reset the decision is the jammed tick, whatever NMI and IRQ are. -/
theorem jammedTick : Obligations.JammedTick := by
  intro s ht hseq hbus hres
  have hboundary : s.boundary = (.jammed, s) := by
    unfold State.boundary
    rw [if_pos hseq, if_neg (by rw [hres]; exact Bool.false_ne_true)]
  have hs : { s with seq := restingSeq .jammed } = s := by rw [restingSeq, if_pos rfl, ← hseq]
  have hrun : s.runSequence .jammed = runRows jamRows s := by rw [State.runSequence, hs]; rfl
  obtain ⟨hregs, hmem, hrest, hcycles⟩ := jamRows_run s
  refine ⟨_, step_sequence (q := .jammed) ht hbus nofun hboundary, ?_⟩
  rw [hrun]
  exact ⟨hrest.seq.trans hseq, hrest.index.trans ht, hregs, sameMemory_of_eq hmem hrest.cfg, hrest.hooks, hrest.cfg, hrest.inhibit,
    (keepsPending_busRel.cycleRel.rows jamRows_quiet s).1, hcycles⟩

end Sys2Proof.Claims
end

section
/-!
What the environment sees of a step (20_memory.md): one sampling of the inputs for each bus cycle, SYNC in cycle 1 alone, every cycle
at a hooked address delivered to its handler; and the first step after power-on.
-/

namespace Sys2Proof.Claims

open Sys2Proof.Machine

/-! ### One sampling per bus cycle (R91, R93) -/

theorem sampledTimes_add (m n : Nat) (s : State) : sampledTimes (m + n) s = sampledTimes n (sampledTimes m s) := by
  induction m generalizing s with
  | zero => rw [Nat.zero_add]; rfl
  | succ m ih => rw [Nat.succ_add]; exact ih s.arrive

/-- `t` has the inputs to come and the latches of the controller of `s`, `inhibit` apart. -/
def SameSampling (s t : State) : Prop := t.inputs = s.inputs ∧ t.ctl = { s.ctl with inhibit := t.ctl.inhibit }

theorem SameSampling.trans {s t u : State} (h : SameSampling s t) (h' : SameSampling t u) : SameSampling s u :=
  ⟨h'.1.trans h.1, by rw [h'.2, h.2]⟩

theorem SameSampling.sampledTimes {s t : State} (h : SameSampling s t) (n : Nat) :
    SameSampling (sampledTimes n s) (sampledTimes n t) := by
  induction n generalizing s t with
  | zero => exact h
  | succ n ih =>
    obtain ⟨hinputs, hctl⟩ := h
    refine ih ⟨congrArg List.tail hinputs, ?_⟩
    rw [State.arrive, State.arrive, hinputs]
    show ({ t.ctl with nmiPending := _, nmiPrev := _, resPending := _, resPrev := _, irqLine := _, rdyLine := _ } : Controller) = _
    rw [hctl]
    rfl

/-- From `s` to `t` the inputs were sampled once for each bus cycle. -/
def SampledOnce (s t : State) : Prop :=
  ∃ n, t.trace.length = s.trace.length + n ∧ SameSampling (sampledTimes n s) t

theorem sampledOnce_busRel : BusRel SampledOnce where
  refl _ := ⟨0, rfl, rfl, rfl⟩
  trans := by
    rintro s t u ⟨m, hm, hst⟩ ⟨n, hn, htu⟩
    refine ⟨m + n, by rw [hn, hm, Nat.add_assoc], ?_⟩
    rw [sampledTimes_add]
    exact (hst.sampledTimes n).trans htu
  read a y s := ⟨1, by simp [State.arrive], by simp [State.arrive, sampledTimes, SameSampling]⟩
  write a v s :=
    ⟨1, by simp [State.arrive, State.emitWrite], by simp [State.arrive, State.emitWrite, sampledTimes, SameSampling]⟩
  quiet h := ⟨0, by rw [h.trace]; rfl, h.inputs, by rcases h.ctl with hc | hc <;> rw [hc] <;> rfl⟩

/-- The opening row of a table is at least one bus cycle. -/
theorem opening_trace_lt {q : Seq} {r : Row} (h : Opening q r) (s : State) : s.trace.length < (r.run s).trace.length := by
  have hrun : r.run s = r.act (s.readCycle (r.addr s) r.sync) := by rw [Row.run, h.read]
  rw [hrun, (h.quiet _).trace]
  refine Nat.lt_of_lt_of_le ?_ (settleRead_length _ _ _ _)
  rw [emitRead_trace]
  exact Nat.lt_succ_self _

theorem step_trace_lt {s t : State} (ht : s.t = 0) (h : step s = .next t) : s.trace.length < t.trace.length := by
  obtain ⟨r, rs, rfl, hr, hrs, -⟩ := step_opening ht h
  obtain ⟨-, -, -, -, dtrace, -⟩ := decided_frame s
  obtain ⟨n, hn, -⟩ := sampledOnce_busRel.cycleRel.rows hrs (r.run s.decided)
  have hfirst := opening_trace_lt hr s.decided
  rw [dtrace] at hfirst
  omega

/-- Settles O13: the boundary decision samples nothing, and each cycle of the table is followed by one sampling. -/
theorem sampledOncePerCycle : Obligations.SampledOncePerCycle := by
  intro s t ht hbus h
  have hlt := step_trace_lt ht h
  obtain ⟨n, hn, hsampled⟩ := sampledOnce_busRel.cycleRel.step ht h
  obtain ⟨-, -, -, -, dtrace, -⟩ := decided_frame s
  have hcount : t.trace.length - s.trace.length = n := by rw [hn, dtrace, Nat.add_sub_cancel_left]
  have hdecided : SameSampling s.boundary.2 s.decided := by rw [State.decided, firstTick_eq hbus]; exact ⟨rfl, rfl⟩
  obtain ⟨hinputs, hctl⟩ := (hdecided.sampledTimes n).trans hsampled
  dsimp only
  rw [hcount]
  exact ⟨by omega, hinputs, hctl⟩

/-! ### SYNC (R88) -/

/-- A read without waits is one bus cycle. -/
theorem readCycle_trace_of_noWaits (a : Word) (y : Bool) {s : State} (h : s.NoWaits) :
    (s.readCycle a y).trace = { addr := a, read := true, data := s.dbus, sync := y } :: s.trace := by
  unfold State.readCycle
  cases hi : s.inputs with
  | nil => rw [State.settleRead]; exact emitRead_trace a y s
  | cons l ls =>
    have hl : l.rdy = false := h l (by rw [hi]; exact List.mem_cons_self)
    rw [State.settleRead, hl, if_neg Bool.false_ne_true]
    exact emitRead_trace a y s

/-- From `s` to `t` no bus cycle asserts SYNC. -/
def AddsUnsynced (s t : State) : Prop := ∃ rest, t.trace = rest ++ s.trace ∧ ∀ c ∈ rest, c.sync = false

theorem run_unsynced {r : Row} (hq : ∀ s, Quiet s (r.act s)) (hr : r.sync = false) {s : State} (h : s.NoWaits) :
    AddsUnsynced s (r.run s) := by
  unfold Row.run
  cases hv : r.value with
  | none =>
    refine ⟨[_], (hq _).trace.trans (readCycle_trace_of_noWaits _ _ h), ?_⟩
    simp [hr]
  | some v =>
    refine ⟨[{ addr := r.addr s, read := false, data := v s, sync := false }], ?_, by simp⟩
    rw [writeCycle_trace, (hq s).trace]
    rfl

theorem runRows_unsynced {rs : List Row} (hrs : LaterRows rs) {s : State} (h : s.NoWaits) : AddsUnsynced s (runRows rs s) := by
  induction rs generalizing s with
  | nil => exact ⟨[], rfl, nofun⟩
  | cons r rs ih =>
    obtain ⟨hquiet, hsync⟩ := hrs
    have hlater : LaterRows rs := ⟨hquiet.tail, fun r hr => hsync r (List.mem_cons_of_mem _ hr)⟩
    have hr := hquiet r List.mem_cons_self
    rw [runRows_cons]
    split
    · obtain ⟨first, hfirst, hf⟩ := run_unsynced hr (hsync r List.mem_cons_self) h
      obtain ⟨rest, hrest, hr'⟩ := ih hlater (Row.run_unwaited hr h).2
      refine ⟨rest ++ first, by rw [hrest, hfirst, List.append_assoc], fun c hc => ?_⟩
      exact (List.mem_append.mp hc).elim (hr' c) (hf c)
    · exact ih hlater h

/-- Settles O20: SYNC is a matter of the rows, and only an opening row can have it. -/
theorem syncLaw : Obligations.SyncLaw := by
  intro s t ht hbus hwaits h
  obtain ⟨r, rs, rfl, hr, hrs⟩ := step_opening ht h
  have hdecided : s.decided.NoWaits := by
    obtain ⟨-, -, -, -, -, -, -, binputs, -⟩ := boundary_frame s
    rw [State.decided, firstTick_eq hbus, State.NoWaits]
    exact fun l hl => hwaits l (binputs ▸ hl)
  obtain ⟨-, -, -, -, dtrace, -⟩ := decided_frame s
  have hrun : r.run s.decided = r.act (s.decided.readCycle (r.addr s.decided) r.sync) := by rw [Row.run, hr.read]
  have hfirst := (hr.quiet _).trace.trans (readCycle_trace_of_noWaits (r.addr s.decided) r.sync hdecided)
  obtain ⟨rest, hrest, hunsynced⟩ := runRows_unsynced hrs (Row.run_unwaited hr.quiet hdecided).2
  rw [hrun, hfirst, dtrace] at hrest
  refine ⟨rest, _, by rw [hrun]; exact hrest, hunsynced, ?_⟩
  rw [← firstTick_eq hbus]
  exact hr.sync

/-! ### Every cycle reaches its handler (R105, R109, R473) -/

/-- From `s` to `t` the handlers were called for the bus cycles at hooked addresses, in order. -/
def CallsHandlers (s t : State) : Prop :=
  t.hooks = s.hooks ∧ ∃ added, t.trace = added ++ s.trace ∧ t.hookCalls.map callShape =
    (added.filter (fun c => (s.hookAt c.addr).isSome)).map cycleShape ++ s.hookCalls.map callShape

theorem emitRead_callsHandlers (a : Word) (y : Bool) (s : State) : CallsHandlers s (s.emitRead a y) := by
  refine ⟨emitRead_hooks a y s, [{ addr := a, read := true, data := s.dbus, sync := y }], emitRead_trace a y s, ?_⟩
  cases hh : s.hookAt a with
  | none => simp [State.emitRead, accessRead_plain (s := s.drive _) hh, hh]
  | some k => simp [State.emitRead, accessRead_hooked_hookCalls (s := s.drive _) hh, hh, callShape, cycleShape]

theorem emitWrite_callsHandlers (a : Word) (v : Byte) (s : State) : CallsHandlers s (s.emitWrite a v) := by
  refine ⟨by simp [State.emitWrite], [{ addr := a, read := false, data := v, sync := false }], by simp [State.emitWrite], ?_⟩
  cases hh : s.hookAt a with
  | none => simp [State.emitWrite, accessWrite_plain (s := s.drive _) hh, hh]
  | some k => simp [State.emitWrite, accessWrite_hooked (s := s.drive _) hh, hh, callShape, cycleShape]

theorem callsHandlers_busRel : BusRel CallsHandlers where
  refl s := ⟨rfl, [], rfl, rfl⟩
  trans := by
    rintro s t u ⟨hst, added, htrace, hcalls⟩ ⟨htu, added', htrace', hcalls'⟩
    refine ⟨htu.trans hst, added' ++ added, by rw [htrace', htrace, List.append_assoc], ?_⟩
    simp only [hcalls', hcalls, hookAt_congr hst, List.filter_append, List.map_append, List.append_assoc]
  read := emitRead_callsHandlers
  write := emitWrite_callsHandlers
  quiet h := ⟨h.hooks, [], h.trace, by rw [h.hookCalls]; rfl⟩

/-- Settles O21: neither the boundary decision nor an action calls a handler or makes a bus cycle. -/
theorem everyCycleReachesHooks : Obligations.EveryCycleReachesHooks := by
  intro s t ht h
  obtain ⟨-, added, htrace, hcalls⟩ := callsHandlers_busRel.cycleRel.step ht h
  obtain ⟨-, -, dhooks, -, dtrace, dcalls⟩ := decided_frame s
  rw [dtrace] at htrace
  simp only [dcalls, hookAt_congr dhooks] at hcalls
  exact ⟨added, htrace, hcalls⟩

/-! ### Power-on (R94, R452, R454) -/

/-- Settles O16: at power-on a reset is pending, so the first step is the reset sequence; on this hardware it gives `State.reset`. -/
theorem powerOnReset : Obligations.PowerOnReset := by
  refine ⟨fun cfg m hs ins => ?_, rfl⟩
  intro s
  have hboundary : s.firstTick.boundary = (.reset, resetTaken s.arrive) :=
    boundary_of_resPending (s := s.arrive) rfl (.inr ⟨rfl, rfl⟩)
  have hstep : step s = .next ((resetTaken s.arrive).runSequence .reset) := by rw [step_eq_runWhole rfl, hboundary]; rfl
  obtain ⟨hregs, hlow, hhigh, hmem, hrest, -⟩ := runSequence_reset_done s.arrive
  have hstatus : packP false { c := false, z := false, i := true, d := false, v := false, n := false } = 0x24 := by decide
  refine ⟨_, hstep, by rw [hregs]; rfl, by rw [hregs]; rfl, by rw [hregs]; rfl, by rw [hregs]; rfl, by rw [hregs]; exact hstatus,
    fun h1 h2 => ?_, sameMemory_of_eq hmem hrest.cfg, hrest.inhibit, hrest.seq, hrest.index⟩
  rw [hregs, hlow h1, hhigh h2]
  rfl

end Sys2Proof.Claims
end

section
/-!
Which instruction writes which part of the state (R34, R40, R372, R407): a part is kept by every bus cycle, so a plan none of whose
actions writes it keeps it, and one look at the plan of each operation settles all of them.
-/

namespace Sys2Proof.Machine

/-! ### Parts of the state -/

/-- A part of the state that only actions write: the flags by rows of R40's table, S, the running sequence, `inhibit`, IR. -/
inductive Part where
  | c
  | zn
  | i
  | d
  | v
  | s
  | seq
  | inhibit
  | ir
deriving DecidableEq

/-- The part is the same in both states. -/
def Part.Same : Part → State → State → Prop
  | .c, u, u' => u'.regs.p.c = u.regs.p.c
  | .zn, u, u' => (u'.regs.p.z, u'.regs.p.n) = (u.regs.p.z, u.regs.p.n)
  | .i, u, u' => u'.regs.p.i = u.regs.p.i
  | .d, u, u' => u'.regs.p.d = u.regs.p.d
  | .v, u, u' => u'.regs.p.v = u.regs.p.v
  | .s, u, u' => u'.regs.s = u.regs.s
  | .seq, u, u' => u'.seq = u.seq
  | .inhibit, u, u' => u'.ctl.inhibit = u.ctl.inhibit
  | .ir, u, u' => u'.latch.ir = u.latch.ir

theorem Part.Same.refl (x : Part) (u : State) : x.Same u u := by cases x <;> rfl

theorem Part.Same.trans {x : Part} {u u' u'' : State} (h : x.Same u u') (h' : x.Same u' u'') : x.Same u u'' := by
  cases x <;> exact Eq.trans h' h

/-- The operations that write a part: the flags' rows of R40, the writers of S of R34, JAM, BRK; none writes IR. -/
def Part.writers : Part → List Operation
  | .c => [.ADC, .SBC, .CMP, .CPX, .CPY, .ASL, .LSR, .ROL, .ROR, .CLC, .SEC, .PLP, .RTI, .SLO, .RLA, .SRE, .RRA, .DCP, .ISC, .ANC,
      .ALR, .ARR, .SBX, .USBC]
  | .zn => [.ADC, .SBC, .AND, .ORA, .EOR, .CMP, .CPX, .CPY, .BIT, .INC, .DEC, .INX, .INY, .DEX, .DEY, .ASL, .LSR, .ROL, .ROR,
      .LDA, .LDX, .LDY, .TAX, .TAY, .TXA, .TYA, .TSX, .PLA, .PLP, .RTI, .SLO, .RLA, .SRE, .RRA, .LAX, .DCP, .ISC, .ANC, .ALR,
      .ARR, .ANE, .LXA, .SBX, .USBC, .LAS]
  | .i => [.SEI, .CLI, .PLP, .RTI, .BRK]
  | .d => [.SED, .CLD, .PLP, .RTI]
  | .v => [.ADC, .SBC, .BIT, .CLV, .PLP, .RTI, .RRA, .ISC, .ARR, .USBC]
  | .s => [.TXS, .LAS, .TAS, .PHA, .PHP, .PLA, .PLP, .JSR, .RTS, .RTI, .BRK]
  | .seq => [.JAM]
  | .inhibit => [.BRK]
  | .ir => []

theorem readCycle_same (x : Part) (a : Word) (y : Bool) (u : State) : x.Same u (u.readCycle a y) := by
  cases x <;> simp [Part.Same]

theorem writeCycle_same (x : Part) (a : Word) (v : Byte) (u : State) : x.Same u (u.writeCycle a v) := by
  cases x <;> simp [Part.Same]

/-! ### Actions, rows and plans that keep a part -/

def KeepsPart (x : Part) (act : State → State) : Prop := ∀ u, x.Same u (act u)

def RowsKeep (x : Part) (rs : List Row) : Prop := ∀ r ∈ rs, KeepsPart x r.act

structure Plan.Keeps (x : Part) (p : Plan) : Prop where
  start : KeepsPart x p.start
  rows : RowsKeep x p.rows

theorem KeepsPart.run {x : Part} {r : Row} (h : KeepsPart x r.act) (u : State) : x.Same u (r.run u) := by
  unfold Row.run
  split
  · exact (readCycle_same x _ _ u).trans (h _)
  · exact (h u).trans (writeCycle_same x _ _ _)

theorem RowsKeep.run {x : Part} {rs : List Row} (h : RowsKeep x rs) (u : State) : x.Same u (runRows rs u) := by
  induction rs generalizing u with
  | nil => exact .refl x u
  | cons r rs ih =>
    have hrs := ih fun r' hr' => h r' (List.mem_cons_of_mem _ hr')
    rw [runRows_cons]
    split
    · exact ((h r List.mem_cons_self).run u).trans (hrs _)
    · exact hrs u

theorem Plan.Keeps.run {x : Part} {p : Plan} (h : p.Keeps x) (u : State) : x.Same u (p.run u) :=
  (h.start u).trans (h.rows.run _)

theorem RowsKeep.append {x : Part} {rs rs' : List Row} (h : RowsKeep x rs) (h' : RowsKeep x rs') : RowsKeep x (rs ++ rs') :=
  fun r hr => (List.mem_append.mp hr).elim (h r) (h' r)

/-! ### The access classes -/

section
variable (x : Part)

theorem keepsPart_id : KeepsPart x id := Part.Same.refl x

theorem formAddress_keeps (m : Mode) : KeepsPart x (formAddress m) := by
  intro u
  cases m <;> cases x <;> rfl

theorem addressRows_keep (m : Mode) : RowsKeep x (addressRows m) := by
  cases m <;> cases x <;> simp [RowsKeep, KeepsPart, addressRows, rd, Part.Same]

theorem uncorrectedRows_keep (m : Mode) : RowsKeep x (uncorrectedRows m) := by
  cases m <;> simp [RowsKeep, uncorrectedRows, canCross, rd, keepsPart_id]

variable {x}

theorem readPlan_keeps (m : Mode) {op : ReadOp} (h : KeepsPart x (State.applyRead op)) : (readPlan m op).Keeps x := by
  by_cases hm : m = .immediate
  · rw [hm]
    exact ⟨h, nofun⟩
  · rw [readPlan_eq hm]
    refine ⟨formAddress_keeps x m, (addressRows_keep x m).append ?_⟩
    have hcrossed : KeepsPart x (fun u => if u.latch.crossed then u else u.applyRead op) := fun u => by
      dsimp only
      split
      · exact .refl x u
      · exact h u
    unfold readRows
    split <;> simp [RowsKeep, rd, Row.onlyIf, h, hcrossed]

theorem writePlan_keeps (m : Mode) (op : StoreOp) : (writePlan m op).Keeps x :=
  ⟨formAddress_keeps x m, ((addressRows_keep x m).append (uncorrectedRows_keep x m)).append (by simp [RowsKeep, wr, keepsPart_id])⟩

theorem highBytePlan_keeps (m : Mode) (reg : StoreOp) {act : State → State} (h : KeepsPart x act) :
    (highBytePlan m reg act).Keeps x :=
  ⟨formAddress_keeps x m, ((addressRows_keep x m).append (uncorrectedRows_keep x m)).append (by simp [RowsKeep, wr, h])⟩

theorem rmwPlan_keeps (m : Mode) {op : RmwOp} (h : KeepsPart x (State.applyRmw op)) : (rmwPlan m op).Keeps x :=
  ⟨formAddress_keeps x m,
    ((addressRows_keep x m).append (uncorrectedRows_keep x m)).append (by simp [RowsKeep, rmwRows, rd, wr, keepsPart_id, h])⟩

/-- A plan of one read, as the internal class and the accumulator forms have it. -/
theorem singleRead_keeps {addr : State → Word} {act : State → State} (h : KeepsPart x act) : Plan.Keeps x ⟨id, [rd addr act]⟩ :=
  ⟨keepsPart_id x, by simp [RowsKeep, rd, h]⟩

theorem shiftPlan_keeps (m : Mode) {op : RmwOp} (h : KeepsPart x (State.applyRmw op))
    (ha : KeepsPart x (fun u => { u with regs := onA op u.cfg u.regs })) : (shiftPlan m op).Keeps x := by
  unfold shiftPlan
  split
  · exact singleRead_keeps ha
  · exact rmwPlan_keeps m h

theorem branchPlan_keeps (cond : Status → Bool) : (branchPlan cond).Keeps x := by
  refine ⟨keepsPart_id x, ?_⟩
  have htaken : KeepsPart x State.takeTarget := fun u => by cases x <;> rfl
  have hformed : KeepsPart x (fun u => if u.formTarget.latch.crossed then u.formTarget else u.formTarget.takeTarget) := fun u => by
    have hform : x.Same u u.formTarget := by cases x <;> rfl
    dsimp only
    split
    · exact hform
    · exact hform.trans (htaken _)
  rintro r (_ | ⟨_, _ | ⟨_, _ | _⟩⟩)
  · exact hformed
  · exact htaken

theorem nopPlan_keeps (m : Mode) : (nopPlan m).Keeps x := by
  unfold nopPlan
  split
  · exact singleRead_keeps (Part.Same.refl x)
  · exact readPlan_keeps m (Part.Same.refl x)

theorem jmpPlan_keeps (m : Mode) : (jmpPlan m).Keeps x := by
  unfold jmpPlan
  split
  · exact ⟨formAddress_keeps x .indirect, by cases x <;> simp [jumpIndirectPlan, RowsKeep, KeepsPart, rd, Part.Same]⟩
  · exact ⟨fun _ => by cases x <;> rfl, nofun⟩

end

/-! ### Every operation (R34, R40, R372) -/

/-- ARR writes A and the flags C, Z, N and V, in both modes (R361). -/
theorem opArr_keeps {x : Part} (h : .ARR ∉ x.writers) : KeepsPart x (State.applyRead opArr) := by
  have hmodes : ∀ cfg m r, opArr cfg m r = arrDecimal (r.a &&& m) r ∨ opArr cfg m r = arrBinary (r.a &&& m) r := fun cfg m r => by
    unfold opArr
    split
    · exact .inl rfl
    · exact .inr rfl
  intro u
  unfold State.applyRead
  rcases hmodes u.cfg u.latch.dl u.regs with hm | hm <;> rw [hm] <;> cases x
  all_goals first | exact absurd (by decide) h | rfl

/-- Of the stack and control plans each has its rows looked at one by one. -/
theorem stackPlan_keeps {x : Part} {op : Operation} {p : Plan} (h : op ∉ x.writers)
    (hp : (op, p) ∈ [(Operation.PHA, phaPlan), (.PHP, phpPlan), (.PLA, plaPlan), (.PLP, plpPlan), (.JSR, jsrPlan), (.RTS, rtsPlan),
      (.RTI, rtiPlan), (.BRK, brkPlan), (.JAM, jamPlan)]) : p.Keeps x := by
  fin_cases hp
  all_goals
    refine ⟨keepsPart_id x, ?_⟩
    cases x
  all_goals first
    | exact absurd (by decide) h
    | simp [phaPlan, phpPlan, pushPlan, plaPlan, plpPlan, pullPlan, jsrPlan, rtsPlan, rtiPlan, returnRows, brkPlan, entryRows,
        vectorRows, jamPlan, RowsKeep, KeepsPart, rd, wr, Part.Same, setNZ]

/-- A plan keeps every part that its operation does not write. -/
theorem planFor_keeps {x : Part} {d : Descriptor} (h : d.op ∉ x.writers) : (planFor d).Keeps x := by
  unfold planFor
  cases hop : d.op <;> rw [hop] at h
  case ARR => exact readPlan_keeps _ (opArr_keeps h)
  all_goals first
    | refine readPlan_keeps _ fun u => ?_
    | exact writePlan_keeps _ _
    | refine rmwPlan_keeps _ fun u => ?_
    | refine shiftPlan_keeps _ (fun u => ?_) (fun u => ?_)
    | refine singleRead_keeps fun u => ?_
    | exact branchPlan_keeps _
    | refine highBytePlan_keeps _ _ fun u => ?_
    | exact nopPlan_keeps _
    | exact jmpPlan_keeps _
    | exact stackPlan_keeps h (by simp)
  all_goals
    cases x
  all_goals first
    | exact absurd (by decide) h
    | rfl

end Sys2Proof.Machine
end

section
/-!
Rules over all instructions: a meaning is the plan its descriptor selects, so it keeps every part its operation does not write; and JAM.
-/

namespace Sys2Proof.Claims

open Sys2Proof.Machine

/-! ### The plan of an instruction (R144) -/

/-- The meaning of an instruction is the plan its descriptor selects, run with its operand latched. -/
theorem exec_eq_planFor (i : Instr) (s : State) :
    exec i s = .next ((planFor i.descriptor).run
      (latchOperand (operandFetches i.descriptor) ((encode i).getD 1 0) ((encode i).getD 2 0) s)) := by
  obtain ⟨-, hdecoded⟩ := ownBytes i
  conv_lhs => rw [← hdecoded]
  exact followsPlan _ _ _ s

theorem latchOperand_same (x : Part) (n : Nat) (b1 b2 : Byte) (s : State) : x.Same s (latchOperand n b1 b2 s) := by
  unfold latchOperand
  split <;> cases x <;> rfl

/-- An instruction keeps the parts of the state that its operation does not write. -/
theorem exec_keeps (x : Part) {i : Instr} {s t : State} (he : exec i s = .next t) (h : i.descriptor.op ∉ x.writers) :
    x.Same s t := by
  rw [exec_eq_planFor, Host.Outcome.next.injEq] at he
  rw [← he]
  exact (latchOperand_same x _ _ _ s).trans ((planFor_keeps h).run _)

/-- Settles O59: the rows of the writers' table (R40) are the writers of the parts. -/
theorem flagWriters : Obligations.FlagWriters := fun _ _ _ he =>
  ⟨exec_keeps .c he, fun h => Prod.mk.inj (exec_keeps .zn he h), exec_keeps .i he, exec_keeps .d he, exec_keeps .v he⟩

/-- Settles O60: S, the running sequence and `inhibit` are parts too. -/
theorem stackPointerWriters : Obligations.StackPointerWriters := fun _ _ _ he =>
  ⟨exec_keeps .s he, fun h => exec_keeps .seq he fun hm => h (List.mem_singleton.mp hm),
    fun h => exec_keeps .inhibit he fun hm => h (List.mem_singleton.mp hm)⟩

/-! ### JAM (R372) -/

theorem jamForms_tabled : ∀ f ∈ jamForms, Tabled .JAM .jam true (fun _ => jamPlan) f := by
  intro f hf
  fin_cases hf <;> exact ⟨fun _ => rfl, rfl, fun _ _ => rfl⟩

/-- Settles O58: each JAM opcode is in the table with the plan that reads once more and jams. -/
theorem jamHalts : Obligations.JamHalts := by
  intro f hf
  have htabled := jamForms_tabled f hf
  have hload : ∀ w s, loadOperand f.mode w s = s := fun w s => by fin_cases hf <;> rfl
  refine ⟨htabled.encoded, fun w s => ⟨_, htabled.runs w s, ?_⟩⟩
  rw [hload]
  obtain ⟨hregs, hmem, hseq, ⟨hindex, hhooks, hcfg, hinhibit, -⟩, hbus⟩ := jamPlan_run s
  exact ⟨hseq, hregs, sameMemory_of_eq hmem hcfg, hindex, hhooks, hcfg, hinhibit, hbus⟩

end Sys2Proof.Claims
end

section
/-!
The tick at the pins (R88, R97): every tick ends with a bus cycle on the pins and the input lines copied, so the pin words between the
core and its memory map say no more than that bus cycle and those lines.
-/

namespace Sys2Proof.Machine

/-! ### The control lines in the pin word (R81, R85) -/

theorem decodeRw_encodePins (a : Word) (d : Byte) (rw : Bool) (ls : PinWord) : decodeRw (encodePins a d rw ls) = rw := by
  simp [decodeRw, encodePins, syncMask, irqMask, nmiMask, rdyMask, resMask]

theorem decodeSync_cyclePins (c : BusCycle) (l : Lines) : decodeSync (cyclePins c l) = c.sync := by
  simp [decodeSync, cyclePins, controlLines, encodePins, syncMask, irqMask, nmiMask, rdyMask, resMask]

theorem decodeLines_encodePins (a : Word) (d : Byte) (rw y : Bool) (l : Lines) :
    decodeLines (encodePins a d rw (controlLines y l)) = l := by
  simp [decodeLines, controlLines, encodePins, syncMask, irqMask, nmiMask, rdyMask, resMask]

/-- Bits 31 and 30 are 0 (R88). -/
theorem cyclePins_top (c : BusCycle) (l : Lines) : (cyclePins c l).getLsbD 30 = false ∧ (cyclePins c l).getLsbD 31 = false := by
  simp [cyclePins, controlLines, encodePins, syncMask, irqMask, nmiMask, rdyMask, resMask]

/-! ### What every tick emits (R57, R91) -/

/-- The last bus cycle shows the byte `d` if it is a read, and the lines last sampled are `l`. -/
structure Emits (d : Byte) (l : Lines) (s : State) : Prop where
  bus : ∃ c, s.lastBus = some c ∧ (c.read = true → c.data = d)
  lines : s.lines = l

theorem Quiet.lines {s t : State} (h : Quiet s t) : t.lines = s.lines := by
  unfold State.lines
  rcases h.ctl with hc | hc <;> rw [hc]

theorem emitRow_emits {r : Row} (h : LocalRow r) (s : State) : Emits s.dbus s.lines (State.emitRow r s) := by
  unfold State.emitRow
  split
  · exact ⟨⟨_, rfl, fun _ => rfl⟩, rfl⟩
  · exact ⟨⟨_, rfl, nofun⟩, (h.act.quiet s).lines⟩

theorem boundary_lines (s : State) : s.boundary.2.lines = s.lines := by
  unfold State.boundary
  repeat' split
  all_goals rfl

/-- The table of every sequence begins with its opening row. -/
theorem rows_opening (s : State) : ∃ r rs, s.rows = r :: rs ∧ Opening s.seq r := by
  unfold State.rows
  have hsequence : ∀ q, q ≠ .instr → ∃ r rs, sequenceRows q s.cfg = r :: rs ∧ Opening q r := fun q hq =>
    have ⟨r, rs, hrows, hr, _⟩ := sequenceRows_opening hq s.cfg
    ⟨r, rs, hrows, hr⟩
  cases s.seq with
  | instr => exact ⟨_, _, rfl, rfl, fun _ => rfl, fetchRow_quiet, fun _ => ⟨nofun, nofun⟩, fun _ => rfl⟩
  | irq => exact hsequence _ nofun
  | nmi => exact hsequence _ nofun
  | reset => exact hsequence _ nofun
  | jammed => exact hsequence _ nofun

/-- Starting a sequence emits its opening row. -/
theorem startSequence_opening (s : State) : ∃ r rs, (s.boundary.2.within s.boundary.1 1).rows = r :: rs ∧ Opening s.boundary.1 r ∧
    s.startSequence = State.emitRow r (s.boundary.2.within s.boundary.1 1) := by
  obtain ⟨r, rs, hrows, hr⟩ := rows_opening (s.boundary.2.within s.boundary.1 1)
  refine ⟨r, rs, hrows, hr, ?_⟩
  rw [startSequence_eq_emitFirst, State.emitFirst, hrows]

theorem startSequence_emits (s : State) : Emits s.dbus s.lines s.startSequence := by
  obtain ⟨r, rs, hrows, -, hstart⟩ := startSequence_opening s
  have hr : LocalRow r := rows_local _ r (by rw [hrows]; exact List.mem_cons_self)
  obtain ⟨-, -, -, -, -, -, -, -, -, bdbus⟩ := boundary_frame s
  have hemits := emitRow_emits hr (s.boundary.2.within s.boundary.1 1)
  rw [← hstart] at hemits
  rw [← bdbus, ← boundary_lines s]
  exact hemits

theorem advance_emits (s : State) : Emits s.dbus s.lines s.advance := by
  unfold State.advance
  split
  · exact startSequence_emits s
  · rename_i r rs hrows
    have hmem : r ∈ s.rows := List.mem_of_mem_drop ((List.dropWhile_sublist _).subset (hrows ▸ List.mem_cons_self))
    exact emitRow_emits (rows_local s r hmem) { s with t := s.t + 1 }

theorem completeRow_frame (s : State) : s.completeRow.dbus = s.dbus ∧ s.completeRow.lines = s.lines ∧ s.completeRow.t = s.t := by
  unfold State.completeRow
  split
  · exact ⟨rfl, rfl, rfl⟩
  · rename_i r hrow
    split
    · have hq := (rows_local s r (List.mem_of_getElem? hrow)).act.quiet s.latchDl
      exact ⟨hq.dbus, hq.lines, hq.t⟩
    · exact ⟨rfl, rfl, rfl⟩

theorem clock_emits (s : State) (d : Byte) (l : Lines) : Emits d l (s.clock d l) := by
  unfold State.clock
  dsimp only
  split
  · exact startSequence_emits { s.sample l with dbus := d }
  · split
    · rename_i hwait
      have hread : ({ s.sample l with dbus := d } : State).lastRead = true := (Bool.and_eq_true _ _ ▸ hwait).2
      unfold State.lastRead at hread
      unfold State.repeatCycle
      split at hread
      · rename_i c hc
        rw [hc]
        exact ⟨⟨_, rfl, fun _ => rfl⟩, rfl⟩
      · exact absurd hread Bool.false_ne_true
    · obtain ⟨hdbus, hlines, -⟩ := completeRow_frame { s.sample l with dbus := d }
      have hemits := advance_emits ({ s.sample l with dbus := d } : State).completeRow
      rw [hdbus, hlines] at hemits
      exact hemits

theorem pinsOut_of_bus {s : State} {c : BusCycle} (h : s.lastBus = some c) : s.pinsOut = cyclePins c s.lines := by
  unfold State.pinsOut
  rw [h]

/-! ### The system tick (R97) -/

/-- The memory map resolves the bus cycle that the pin word shows. -/
theorem service_pinsOut {s : State} (h : s.lastBus ≠ none) : State.service s.pinsOut s = s.answer := by
  obtain ⟨c, hc⟩ := Option.ne_none_iff_exists'.mp h
  unfold State.service State.answer
  rw [pinsOut_of_bus hc, hc]
  unfold cyclePins
  rw [decodeRw_encodePins, decodeAddress_encodePins, decodeData_encodePins]

theorem systemTick_eq_lineTick (s : State) : systemTick s = s.lineTick := by
  have htick : (tick { s with inputs := s.inputs.tail } s.pinsIn).1 =
      State.clock s.dbus (s.inputs.headD Lines.idle) { s with inputs := s.inputs.tail } := by
    unfold tick State.pinsIn
    rw [decodeData_encodePins, decodeLines_encodePins]
  obtain ⟨⟨c, hc, -⟩, -⟩ := clock_emits { s with inputs := s.inputs.tail } s.dbus (s.inputs.headD Lines.idle)
  unfold systemTick State.lineTick
  rw [← htick] at hc ⊢
  exact service_pinsOut fun hnone => Option.some_ne_none c (hc.symm.trans hnone)

theorem systemTicks_eq_lineTicks (n : Nat) (s : State) : systemTicks n s = State.lineTicks n s := by
  induction n generalizing s with
  | zero => rfl
  | succ n ih => rw [systemTicks, systemTick_eq_lineTick, ih]; rfl

theorem openSequence_eq_answer (s : State) : s.openSequence = s.startSequence.answer := by
  obtain ⟨⟨c, hc, -⟩, -⟩ := startSequence_emits s
  exact service_pinsOut (by rw [hc]; exact nofun)

/-! ### The claims -/

/-- Settles O23: the pin word shows the bus cycle that the tick emitted and the lines it sampled. -/
theorem tickOutput : Obligations.TickOutput := by
  intro s pinsIn
  obtain ⟨⟨c, hc, hdata⟩, hlines⟩ := clock_emits s (decodeData pinsIn) (decodeLines pinsIn)
  have hpins : (tick s pinsIn).2 = cyclePins c (decodeLines pinsIn) := by
    rw [← hlines]
    exact pinsOut_of_bus hc
  dsimp only
  rw [hpins]
  exact ⟨⟨c, hc, decodeAddress_encodePins _ _ _ _, decodeData_encodePins _ _ _ _, decodeRw_encodePins _ _ _ _,
    decodeSync_cyclePins _ _, hdata⟩, decodeLines_encodePins _ _ _ _ _, cyclePins_top _ _⟩

/-- Settles O27: the opening row of an instruction, IRQ or NMI sequence is a fetch at PC, which no register has changed for. -/
theorem snapshotAtFetch : Obligations.SnapshotAtFetch := by
  intro s ht hreset hjammed
  obtain ⟨bregs, -⟩ := boundary_frame s
  have hfetch : s.startSequence = State.drive { addr := s.boundary.2.regs.pc, read := true, data := s.boundary.2.dbus, sync := true }
      (s.boundary.2.within s.boundary.1 1) := by
    unfold State.startSequence
    dsimp only
    cases hq : s.boundary.1 with
    | instr => rfl
    | irq => rfl
    | nmi => rfl
    | reset => exact absurd hq hreset
    | jammed => exact absurd hq hjammed
  have hopen : s.openSequence = State.accessRead s.boundary.2.regs.pc s.startSequence := by
    rw [openSequence_eq_answer, State.answer, hfetch]
    rfl
  unfold State.snapshot
  rw [hopen, accessRead_lastBus, accessRead_regs, hfetch, ← bregs]
  rfl

end Sys2Proof.Machine
end

section
/-!
The cycle index (R13, R45, R91): in every table a row that does not happen is followed by none that does, so the cycle a tick emits is
the row at the new index, and the index always points at the outstanding cycle.
-/

namespace Sys2Proof.Machine

/-! ### The order of conditional rows (R13) -/

/-- Every row happens. -/
def AlwaysRows (rs : List Row) : Prop := ∀ r ∈ rs, ∀ u, r.happens u = true

/-- After a row that does not happen no row happens. -/
def OrderedRows (rs : List Row) : Prop := rs.Pairwise fun r r' => ∀ u, r.happens u = false → r'.happens u = false

theorem not_happens_of_always {r : Row} (h : ∀ u, r.happens u = true) (u : State) : r.happens u ≠ false := by
  rw [h u]
  exact nofun

theorem AlwaysRows.ordered {rs : List Row} (h : AlwaysRows rs) : OrderedRows rs :=
  List.pairwise_of_forall_mem_list fun r hr _ _ u hf => absurd hf (not_happens_of_always (h r hr) u)

theorem AlwaysRows.append {rs rs' : List Row} (h : AlwaysRows rs) (h' : AlwaysRows rs') : AlwaysRows (rs ++ rs') :=
  fun r hr => (List.mem_append.mp hr).elim (h r) (h' r)

theorem AlwaysRows.append_ordered {rs rs' : List Row} (h : AlwaysRows rs) (h' : OrderedRows rs') : OrderedRows (rs ++ rs') :=
  List.pairwise_append.mpr ⟨h.ordered, h', fun r hr _ _ u hf => absurd hf (not_happens_of_always (h r hr) u)⟩

theorem addressRows_always (m : Mode) : AlwaysRows (addressRows m) := by cases m <;> simp [AlwaysRows, addressRows]

theorem uncorrectedRows_always (m : Mode) : AlwaysRows (uncorrectedRows m) := by
  cases m <;> simp [AlwaysRows, uncorrectedRows, canCross]

theorem readPlan_ordered (m : Mode) (op : ReadOp) : OrderedRows (readPlan m op).rows := by
  by_cases hm : m = .immediate
  · rw [hm]
    exact .nil
  · rw [readPlan_eq hm]
    refine (addressRows_always m).append_ordered ?_
    unfold readRows
    split
    · exact AlwaysRows.append_ordered (rs := [rd _ _]) (by simp [AlwaysRows]) (List.pairwise_singleton _ _)
    · exact List.pairwise_singleton _ _

theorem storeRows_always (m : Mode) {rs : List Row} (h : AlwaysRows rs) :
    AlwaysRows (addressRows m ++ uncorrectedRows m ++ rs) := ((addressRows_always m).append (uncorrectedRows_always m)).append h

theorem rmwPlan_always (m : Mode) (op : RmwOp) : AlwaysRows (rmwPlan m op).rows :=
  storeRows_always m (by simp [AlwaysRows, rmwRows])

/-- The second row of a branch asks for the page crossing as well as for what the first asks (R306). -/
theorem branchPlan_ordered (cond : Status → Bool) : OrderedRows (branchPlan cond).rows := by
  refine .cons ?_ (List.pairwise_singleton _ _)
  intro r hr u hf
  rw [List.mem_singleton.mp hr]
  exact (Bool.and_eq_false_iff).mpr (.inl hf)

theorem planFor_ordered (d : Descriptor) : OrderedRows (planFor d).rows := by
  unfold planFor nopPlan shiftPlan jmpPlan
  cases d.op
  all_goals
    dsimp only
    repeat' split
  all_goals first
    | exact readPlan_ordered _ _
    | exact branchPlan_ordered _
    | exact (rmwPlan_always _ _).ordered
    | exact (storeRows_always _ (by simp [AlwaysRows])).ordered
    | exact AlwaysRows.ordered (by simp [AlwaysRows, internalPlan, accumulatorPlan, phaPlan, phpPlan, pushPlan, plaPlan, plpPlan,
        pullPlan, jumpPlan, jumpIndirectPlan, jsrPlan, rtsPlan, rtiPlan, returnRows, brkPlan, entryRows, vectorRows, jamPlan])

/-! ### The rows after cycle 1 -/

/-- Rows after cycle 1: local, in order, keeping IR and the running sequence, but for the one row of JAM (R372). -/
structure Sequenced (rs : List Row) : Prop where
  isLocal : LocalRows rs
  ordered : OrderedRows rs
  ir : RowsKeep .ir rs
  seq : RowsKeep .seq rs ∨ rs = jamPlan.rows

theorem instrRows_sequenced (o : Byte) : Sequenced (instrRows o) := by
  have hlocal := instrRows_local o
  have hordered := planFor_ordered (descriptor o)
  have hkeeps : ∀ x : Part, (x = .ir ∨ x = .seq) → (descriptor o).op ∉ x.writers → RowsKeep x (instrRows o) := by
    intro x hx hw
    obtain ⟨hstart, hrows⟩ := planFor_keeps hw
    have hlatch : KeepsPart x (fun u => u.latchLo.incPc) ∧ KeepsPart x (fun u => u.latchHi.incPc) := by
      rcases hx with rfl | rfl <;> exact ⟨fun _ => rfl, fun _ => rfl⟩
    unfold instrRows
    dsimp only
    split
    · exact hrows
    · exact List.forall_mem_cons.mpr ⟨fun u => (hlatch.1 u).trans (hstart _), hrows⟩
    · exact List.forall_mem_cons.mpr ⟨hlatch.1, List.forall_mem_cons.mpr ⟨fun u => (hlatch.2 u).trans (hstart _), hrows⟩⟩
  refine ⟨hlocal, ?_, hkeeps .ir (.inl rfl) nofun, ?_⟩
  · unfold instrRows
    dsimp only
    split
    · exact hordered
    · exact AlwaysRows.append_ordered (rs := [_]) (by simp [AlwaysRows]) hordered
    · exact AlwaysRows.append_ordered (rs := [_, _]) (by simp [AlwaysRows, operandLoRow]) hordered
  · by_cases hjam : (descriptor o).op = .JAM
    · right
      have htable : ∀ o : Byte, (descriptor o).op = .JAM → operandFetches (descriptor o) = 0 := by decide
      have hplan : planFor (descriptor o) = jamPlan := by rw [planFor, hjam]
      rw [instrRows, hplan, htable o hjam]
      rfl
    · exact .inl (hkeeps .seq (.inr rfl) fun hm => hjam (List.mem_singleton.mp hm))

/-- A row of a sequence that is no instruction always happens and keeps IR and the running sequence. -/
theorem sequenceRows_steady (q : Seq) (cfg : Config) :
    AlwaysRows (sequenceRows q cfg) ∧ RowsKeep .ir (sequenceRows q cfg) ∧ RowsKeep .seq (sequenceRows q cfg) := by
  cases q with
  | reset =>
    by_cases h7 : cfg.resetCycles = 7 <;>
      simp [AlwaysRows, RowsKeep, KeepsPart, Part.Same, sequenceRows, resetRows, vectorRows, rd, h7]
  | _ => simp [AlwaysRows, RowsKeep, KeepsPart, Part.Same, sequenceRows, interruptRows, entryRows, vectorRows, jamRows, rd, wr,
      Row.withSync]

theorem rows_sequenced (s : State) : ∃ r rs, s.rows = r :: rs ∧ Opening s.seq r ∧ LocalRow r ∧ Sequenced rs := by
  obtain ⟨r, rs, hrows, hr⟩ := rows_opening s
  have hlocal := rows_local s
  rw [hrows] at hlocal
  refine ⟨r, rs, hrows, hr, hlocal r List.mem_cons_self, ?_⟩
  have hsequence : ∀ q, sequenceRows q s.cfg = r :: rs → Sequenced rs := fun q hq => by
    obtain ⟨halways, hir, hseq⟩ := sequenceRows_steady q s.cfg
    rw [hq] at halways hir hseq
    have htail : ∀ {P : Row → Prop}, (∀ r' ∈ r :: rs, P r') → ∀ r' ∈ rs, P r' := fun h => (List.forall_mem_cons.mp h).2
    exact ⟨htail hlocal, (AlwaysRows.ordered halways).of_cons, htail hir, .inl (htail hseq)⟩
  unfold State.rows at hrows
  split at hrows
  · obtain ⟨-, rfl⟩ := List.cons.inj hrows
    exact instrRows_sequenced _
  all_goals exact hsequence _ hrows

/-! ### The row a tick goes on to (R91) -/

/-- The row after cycle `s.t`, if there is one, is the first of those left. -/
theorem drop_rows (s : State) (ht : s.t ≠ 0) : ∃ rs, Sequenced rs ∧ s.rows.drop s.t = rs.drop (s.t - 1) := by
  obtain ⟨r, rs, hrows, -, -, hrs⟩ := rows_sequenced s
  refine ⟨rs, hrs, ?_⟩
  rw [hrows]
  obtain ⟨n, hn⟩ := Nat.exists_eq_succ_of_ne_zero ht
  rw [hn]
  rfl

/-- What `advance` goes on to: cycle 1 of the next sequence when no row that is left happens, else the first row left. -/
theorem advance_cases (s : State) (ht : s.t ≠ 0) :
    ((∀ r ∈ s.rows.drop s.t, r.happens s = false) ∧ s.advance = s.startSequence) ∨
    ∃ r rs, s.rows.drop s.t = r :: rs ∧ r.happens s = true ∧ s.advance = State.emitRow r { s with t := s.t + 1 } := by
  obtain ⟨rows, hrows, hdrop⟩ := drop_rows s ht
  have hordered : OrderedRows (s.rows.drop s.t) := hdrop ▸ hrows.ordered.sublist (List.drop_sublist _ _)
  unfold State.advance
  generalize s.rows.drop s.t = left at hordered
  cases left with
  | nil => exact .inl ⟨nofun, rfl⟩
  | cons r rs =>
    cases hr : r.happens s with
    | true => exact .inr ⟨r, rs, rfl, hr, by rw [List.dropWhile_cons_of_neg (by simp [hr])]⟩
    | false =>
      have hnone : ∀ r' ∈ r :: rs, r'.happens s = false :=
        List.forall_mem_cons.mpr ⟨hr, fun r' hr' => (List.pairwise_cons.mp hordered).1 r' hr' s hr⟩
      refine .inl ⟨hnone, ?_⟩
      rw [List.dropWhile_eq_nil_iff.mpr fun r' hr' => by rw [hnone r' hr']; rfl]

end Sys2Proof.Machine
end

section
/-!
Steps and ticks are one machine (R6, R96, R97): the ticks of one row do what `Row.run` does, a tick from inside a sequence leaves alone
what completing that sequence gives, and the tick after its last cycle opens the next sequence from there.
-/

namespace Sys2Proof.Machine

/-! ### Between sequences (R45, R60) -/

/-- `s` as it stands when its sequence is over. -/
def State.rest (s : State) : State := s.within (restingSeq s.seq) 0

theorem settleRead_within (a : Word) (y : Bool) (q : Seq) (n : Nat) (ls : List Lines) (s : State) :
    State.settleRead a y ls (s.within q n) = (State.settleRead a y ls s).within q n := by
  induction ls generalizing s with
  | nil => rfl
  | cons l ls ih =>
    have hemit : State.emitRead a y { State.sample l (s.within q n) with inputs := ls } =
        (State.emitRead a y { s.sample l with inputs := ls }).within q n :=
      accessRead_within a q n (State.drive { addr := a, read := true, data := s.dbus, sync := y } { s.sample l with inputs := ls })
    rw [State.settleRead, State.settleRead]
    split
    · rw [hemit, ih]
    · rfl

theorem readCycle_within (a : Word) (y : Bool) (q : Seq) (n : Nat) (s : State) :
    (s.within q n).readCycle a y = (s.readCycle a y).within q n := by
  have hemit : State.emitRead a y (s.within q n) = (s.emitRead a y).within q n :=
    accessRead_within a q n (State.drive { addr := a, read := true, data := s.dbus, sync := y } s)
  rw [State.readCycle, hemit, settleRead_within]
  rfl

theorem writeCycle_within (a : Word) (v : Byte) (q : Seq) (n : Nat) (s : State) :
    (s.within q n).writeCycle a v = (s.writeCycle a v).within q n := by
  have hemit : State.emitWrite a v (s.within q n) = (s.emitWrite a v).within q n :=
    accessWrite_within a v q n (State.drive { addr := a, read := false, data := v, sync := false } s)
  rw [State.writeCycle, hemit]
  rfl

/-- A local action does not ask where in a sequence it stands. -/
theorem LocalAct.rest {act : State → State} (h : LocalAct act) (s : State) : act s.rest = (act s).rest := by
  have hq := h.quiet s
  have hq' := h.quiet s.rest
  have hlike : s.like s.rest = s.rest := State.like_eq rfl rfl rfl
  have hseq : (act s.rest).seq = restingSeq (act s).seq := by
    rcases h.seq with hs | hs <;> rw [hs, hs] <;> rfl
  have hctl : (act s.rest).ctl = (act s).ctl := by rcases h.ctl with hc | hc <;> rw [hc, hc] <;> rfl
  have hregs := h.regs s s.rest
  have hlatch := h.latch s s.rest
  rw [hlike] at hregs hlatch
  exact State.eq_of_fields hregs hlatch hseq hq'.t hctl (hq'.lastBus.trans hq.lastBus.symm) (hq'.dbus.trans hq.dbus.symm)
    (hq'.mem.trans hq.mem.symm) (hq'.hooks.trans hq.hooks.symm) (hq'.hookCalls.trans hq.hookCalls.symm)
    (hq'.cfg.trans hq.cfg.symm) (hq'.inputs.trans hq.inputs.symm) (hq'.trace.trans hq.trace.symm)

theorem LocalRow.run_rest {r : Row} (h : LocalRow r) (s : State) : r.run s.rest = (r.run s).rest := by
  have hlike : s.like s.rest = s.rest := State.like_eq rfl rfl rfl
  have haddr : r.addr s.rest = r.addr s := hlike ▸ h.addr s s.rest
  unfold Row.run
  cases hv : r.value with
  | none =>
    dsimp only
    have hread : s.rest.readCycle (r.addr s) r.sync = (s.readCycle (r.addr s) r.sync).rest := by
      rw [State.rest, readCycle_within, State.rest, readCycle_seq]
    rw [haddr, hread, h.act.rest]
  | some v =>
    dsimp only
    have hvalue : v s.rest = v s := hlike ▸ h.value v hv s s.rest
    rw [haddr, hvalue, h.act.rest, State.rest, writeCycle_within, State.rest, writeCycle_seq]

theorem LocalRow.happens_rest {r : Row} (h : LocalRow r) (s : State) : r.happens s.rest = r.happens s := by
  have hlike : s.like s.rest = s.rest := State.like_eq rfl rfl rfl
  exact hlike ▸ h.happens s s.rest

/-- The boundary decision asks of `seq` only whether the core is jammed (R405). -/
theorem boundary_rest (s : State) : s.rest.boundary = (s.boundary.1, s.boundary.2.within (restingSeq s.seq) 0) := by
  have hjam : s.rest.seq = .jammed ↔ s.seq = .jammed := by
    show restingSeq s.seq = .jammed ↔ s.seq = .jammed
    cases s.seq <;> decide
  have hctl : s.rest.ctl = s.ctl := rfl
  have hregs : s.rest.regs = s.regs := rfl
  unfold State.boundary
  simp only [hjam, hctl, hregs]
  repeat' split
  all_goals rfl

theorem startSequence_rest (s : State) : s.rest.startSequence = s.startSequence := by
  rw [startSequence_eq_emitFirst, startSequence_eq_emitFirst, boundary_rest]
  rfl

/-! ### One row, and the rest of its table (R91, R96) -/

/-- Once emitted and answered, the cycle of a row is completed to the whole row. -/
theorem finishCycle_emitRow {r : Row} (hq : ∀ u, Quiet u (r.act u)) {s : State} (hrow : s.rows[s.t - 1]? = some r)
    (hkeep : r.value ≠ none → (r.act s).rows = s.rows) : (State.emitRow r s).answer.finishCycle = r.run s := by
  cases hv : r.value with
  | none =>
    have hx : (State.emitRow r s).answer = s.emitRead (r.addr s) r.sync := by unfold State.emitRow; rw [hv]; rfl
    have hrows : (s.emitRead (r.addr s) r.sync).rows = s.rows :=
      rows_congr (emitRead_seq _ _ _) (by rw [emitRead_latch]) (emitRead_cfg _ _ _)
    rw [hx]
    unfold State.finishCycle
    rw [hrows, emitRead_t, hrow, emitRead_lastBus, emitRead_inputs]
    dsimp only
    rw [Row.run, hv]
    rfl
  | some v =>
    have hx : (State.emitRow r s).answer = (r.act s).emitWrite (r.addr s) (v s) := by unfold State.emitRow; rw [hv]; rfl
    have hrows : ((r.act s).emitWrite (r.addr s) (v s)).rows = s.rows := by
      rw [← hkeep (by rw [hv]; nofun)]
      exact rows_congr (by simp [State.emitWrite]) (by simp [State.emitWrite]) (by simp [State.emitWrite])
    have ht : ((r.act s).emitWrite (r.addr s) (v s)).t = s.t := by simp [State.emitWrite, (hq s).t]
    have hbus : ((r.act s).emitWrite (r.addr s) (v s)).lastBus =
        some { addr := r.addr s, read := false, data := v s, sync := false } := by simp [State.emitWrite]
    rw [hx]
    unfold State.finishCycle
    rw [hrows, ht, hrow, hbus]
    dsimp only
    rw [Row.run, hv]
    rfl

theorem emitRow_answer_frame {r : Row} (hq : ∀ u, Quiet u (r.act u)) (s : State) :
    (State.emitRow r s).answer.t = s.t ∧ (State.emitRow r s).answer.trace.length = s.trace.length + 1 := by
  unfold State.emitRow
  split
  · exact ⟨by simp [State.answer], by simp [State.answer]⟩
  · exact ⟨by simp [State.answer, (hq s).t], by simp [State.answer, (hq s).trace]⟩

theorem emitRow_t {r : Row} (hq : ∀ u, Quiet u (r.act u)) (s : State) : (State.emitRow r s).t = s.t := by
  unfold State.emitRow
  split
  · rfl
  · exact (hq s).t

theorem resume_eq (s : State) : s.resume = runRows (s.finishCycle.rows.drop s.t) s.finishCycle.rest := rfl

/-- Completing a sequence whose row `r` has just been emitted is the row and then the rest of the table. -/
theorem resume_emitRow {r : Row} (h : LocalRow r) {s : State} (hrow : s.rows[s.t - 1]? = some r)
    (hkeep : r.value ≠ none → (r.act s).rows = s.rows) :
    (State.emitRow r s).answer.resume = runRows ((r.run s).rows.drop s.t) (r.run s.rest) := by
  rw [resume_eq, finishCycle_emitRow h.act.quiet hrow hkeep, (emitRow_answer_frame h.act.quiet s).1, h.run_rest]

theorem run_cfg {r : Row} (hq : ∀ u, Quiet u (r.act u)) (s : State) : (r.run s).cfg = s.cfg := by
  unfold Row.run
  split
  · rw [(hq _).cfg, readCycle_cfg]
  · rw [writeCycle_cfg, (hq _).cfg]

theorem run_rows {r : Row} (hq : ∀ u, Quiet u (r.act u)) (hseq : KeepsPart .seq r.act) (hir : KeepsPart .ir r.act) (s : State) :
    (r.run s).rows = s.rows := rows_congr (hseq.run s) (hir.run s) (run_cfg hq s)

/-- A write after cycle 1 keeps the table: the row of JAM is a read. -/
theorem Sequenced.act_rows {rs : List Row} (h : Sequenced rs) {r : Row} (hr : r ∈ rs) (hv : r.value ≠ none) (s : State) :
    (r.act s).rows = s.rows := by
  have hseq : KeepsPart .seq r.act := h.seq.elim (fun hs => hs r hr) fun hjam => by
    rw [hjam] at hr
    exact absurd (by rw [List.mem_singleton.mp hr]; rfl) hv
  exact rows_congr (hseq s) (h.ir r hr s) ((h.isLocal r hr).act.quiet s).cfg

/-- Once a row after cycle 1 has been performed, the rows left are those after it; after the row of JAM there is none. -/
theorem Sequenced.rows_left {rows : List Row} (h : Sequenced rows) {s : State} {n : Nat} (hdrop : s.rows.drop (n + 1) = rows.drop n)
    {r : Row} {rs : List Row} (hleft : rows.drop n = r :: rs) : (r.run s).rows.drop (n + 2) = rs := by
  have hr : r ∈ rows := List.mem_of_mem_drop (hleft ▸ List.mem_cons_self)
  have hquiet := (h.isLocal r hr).act.quiet
  rcases h.seq with hseq | rfl
  · rw [run_rows hquiet (hseq r hr) (h.ir r hr), ← Nat.add_assoc n 1 1, ← List.drop_drop, hdrop, hleft]
    rfl
  · have hjam : (r.run s).rows = jamRows := by
      have hr' : r = rd atPc fun s => { s with seq := .jammed } := List.mem_singleton.mp hr
      rw [hr']
      rfl
    have hrs : rs = [] := by
      have hlength := congrArg List.length hleft
      rw [List.length_drop] at hlength
      exact List.length_eq_zero_iff.mp (Nat.le_zero.mp (by simp [jamPlan] at hlength; omega))
    rw [hjam, hrs]
    exact List.drop_eq_nil_of_le (Nat.le_add_left 1 _)

/-- Rows none of which happens do nothing. -/
theorem runRows_none {rs : List Row} {s : State} (h : ∀ r ∈ rs, r.happens s = false) : runRows rs s = s := by
  induction rs with
  | nil => rfl
  | cons r rs ih =>
    rw [runRows_cons, h r List.mem_cons_self]
    exact ih fun r' hr' => h r' (List.mem_cons_of_mem _ hr')

end Sys2Proof.Machine
end

section
/-!
The tick from inside a sequence (R91, R93, R97): the outstanding cycle stays the one the index points at, and each tick either waits,
or completes its row and emits the next one, or completes the sequence and opens the next.
-/

namespace Sys2Proof.Claims

open Sys2Proof.Machine

/-! ### The outstanding cycle (R45, R91) -/

theorem emitRow_outstanding {r : Row} (hq : ∀ u, Quiet u (r.act u)) {s : State} (hrow : s.rows[s.t - 1]? = some r)
    (hkeep : r.value ≠ none → (r.act s).rows = s.rows) : Outstanding (State.emitRow r s) := by
  intro _
  rw [emitRow_t hq]
  unfold State.emitRow
  cases hv : r.value with
  | none => exact ⟨r, _, hrow, rfl, by rw [hv]; rfl⟩
  | some v =>
    refine ⟨r, _, ?_, rfl, by rw [hv]; rfl⟩
    rw [← hkeep (by rw [hv]; nofun)] at hrow
    exact hrow

theorem startSequence_outstanding (s : State) : Outstanding s.startSequence := by
  obtain ⟨r, rs, hrows, hr, hstart⟩ := startSequence_opening s
  rw [hstart]
  exact emitRow_outstanding hr.quiet (congrArg (·[0]?) hrows) fun hv => absurd hr.read hv

/-- The row an advance emits stands at the new index. -/
theorem row_at_next {s : State} (ht : s.t ≠ 0) {r : Row} {rs : List Row} (hleft : s.rows.drop s.t = r :: rs) :
    ∃ rows, Sequenced rows ∧ r ∈ rows ∧ ({ s with t := s.t + 1 } : State).rows[s.t + 1 - 1]? = some r := by
  obtain ⟨rows, hrows, hdrop⟩ := drop_rows s ht
  refine ⟨rows, hrows, List.mem_of_mem_drop (hdrop ▸ hleft ▸ List.mem_cons_self), ?_⟩
  have hget : (s.rows.drop s.t)[0]? = some r := by rw [hleft]; rfl
  rwa [List.getElem?_drop] at hget

theorem advance_outstanding {s : State} (ht : s.t ≠ 0) : Outstanding s.advance := by
  obtain ⟨-, hstart⟩ | ⟨r, rs, hleft, -, hemit⟩ := advance_cases s ht
  · rw [hstart]
    exact startSequence_outstanding s
  · obtain ⟨rows, hrows, hr, hrow⟩ := row_at_next ht hleft
    rw [hemit]
    exact emitRow_outstanding (hrows.isLocal r hr).act.quiet hrow fun hv => hrows.act_rows hr hv _

theorem clock_outstanding (s : State) (d : Byte) (l : Lines) (h : Outstanding s) : Outstanding (s.clock d l) := by
  by_cases ht : s.t = 0
  · unfold State.clock
    dsimp only
    rw [if_pos (by exact ht)]
    exact startSequence_outstanding _
  · obtain ⟨r, c, hrow, hbus, hread⟩ := h ht
    by_cases hwait : l.rdy = true ∧ c.read = true
    · obtain ⟨hrdy, hc⟩ := hwait
      rw [clock_wait ht hbus hc hrdy]
      exact fun _ => ⟨r, _, hrow, rfl, hread⟩
    · have hclock : s.clock d l = ({ s.sample l with dbus := d } : State).completeRow.advance := by
        unfold State.clock
        dsimp only
        have hlast : ({ s.sample l with dbus := d } : State).lastRead = c.read := by
          unfold State.lastRead
          rw [show ({ s.sample l with dbus := d } : State).lastBus = some c from hbus]
        rw [if_neg (by exact ht), hlast, if_neg (by rw [Bool.and_eq_true]; exact hwait)]
      obtain ⟨-, -, hindex⟩ := completeRow_frame { s.sample l with dbus := d }
      rw [hclock]
      exact advance_outstanding (by rw [hindex]; exact ht)

/-- Settles O26: a wait repeats the cycle, every other tick emits the row at its new index; between sequences there is no cycle. -/
theorem outstandingKept : Obligations.OutstandingKept :=
  ⟨clock_outstanding, fun h => absurd rfl h, fun h => absurd rfl h⟩

/-! ### One tick (R91, R93) -/

/-- A state inside a sequence: its outstanding cycle is the one of its table. -/
structure Inside (s : State) : Prop where
  index : s.t ≠ 0
  outstanding : Outstanding s

theorem answer_outstanding {s : State} (h : Outstanding s) : Outstanding s.answer := by
  unfold State.answer
  split
  · have hframe : ∀ u : State, u.rows = s.rows → u.t = s.t → u.lastBus = s.lastBus → Outstanding u := fun u hr ht hb hu => by
      rw [ht] at hu
      rw [hr, ht, hb]
      exact h hu
    split
    · exact hframe _ (rows_congr (by simp) (by simp) (by simp)) (by simp) (by simp)
    · exact hframe _ (rows_congr (by simp) (by simp) (by simp)) (by simp) (by simp)
  · exact h

theorem lineTick_outstanding {s : State} (h : Outstanding s) : Outstanding s.lineTick :=
  answer_outstanding (clock_outstanding _ _ _ h)

theorem finishCycle_read {s : State} {r : Row} {c : BusCycle} (hrow : s.rows[s.t - 1]? = some r) (hbus : s.lastBus = some c)
    (hv : r.value = none) : s.finishCycle = r.act (State.settleRead c.addr c.sync s.inputs s) := by
  unfold State.finishCycle
  rw [hrow, hbus]
  dsimp only
  rw [hv]

theorem finishCycle_write {s : State} {r : Row} {c : BusCycle} {v : State → Byte} (hrow : s.rows[s.t - 1]? = some r)
    (hbus : s.lastBus = some c) (hv : r.value = some v) : s.finishCycle = s.arrive := by
  unfold State.finishCycle
  rw [hrow, hbus]
  dsimp only
  rw [hv]

/-- The wait tick makes the read again and leaves its completion as it was (R93). -/
theorem lineTick_wait {s : State} {r : Row} {c : BusCycle} {l : Lines} {ls : List Lines} (ht : s.t ≠ 0)
    (hrow : s.rows[s.t - 1]? = some r) (hbus : s.lastBus = some c) (hv : r.value = none) (hc : c.read = true)
    (hinputs : s.inputs = l :: ls) (hwait : l.rdy = true) :
    s.lineTick = s.arrive.emitRead c.addr c.sync ∧ s.lineTick.finishCycle = s.finishCycle := by
  have hdata : { c with data := s.dbus } = ({ addr := c.addr, read := true, data := s.dbus, sync := c.sync } : BusCycle) := by
    rw [← hc]
  have hhead : s.inputs.headD Lines.idle = l := by rw [hinputs]; rfl
  have htick : s.lineTick = s.arrive.emitRead c.addr c.sync := by
    have hclock := clock_wait (s := { s with inputs := s.inputs.tail }) (d := s.dbus) (l := s.inputs.headD Lines.idle) ht hbus hc
      (by rw [hhead]; exact hwait)
    rw [hdata] at hclock
    exact congrArg State.answer hclock
  refine ⟨htick, ?_⟩
  have hrows : (s.arrive.emitRead c.addr c.sync).rows = s.rows :=
    (rows_congr (emitRead_seq _ _ _) (by rw [emitRead_latch]) (emitRead_cfg _ _ _)).trans (rows_congr rfl rfl rfl)
  rw [htick, finishCycle_read (by rw [hrows, emitRead_t]; exact hrow) (emitRead_lastBus _ _ _) hv, finishCycle_read hrow hbus hv,
    emitRead_inputs, hinputs]
  conv_rhs => rw [State.settleRead, if_pos hwait]
  rw [State.arrive, hhead, hinputs]
  rfl

/-- A tick waits, or it completes the outstanding cycle and goes on (R91, R93). -/
theorem lineTick_cases {s : State} (h : Inside s) :
    (s.lineTick.t = s.t ∧ s.lineTick.trace.length = s.trace.length + 1 ∧ s.lineTick.finishCycle = s.finishCycle) ∨
    (s.finishCycle.t = s.t ∧ s.finishCycle.trace = s.trace ∧ s.lineTick = s.finishCycle.advance.answer) := by
  obtain ⟨ht, hout⟩ := h
  obtain ⟨r, c, hrow, hbus, hread⟩ := hout ht
  cases hv : r.value with
  | some v =>
    have hc : c.read = false := by rw [hread, hv]; rfl
    rw [finishCycle_write hrow hbus hv]
    exact .inr ⟨rfl, rfl, congrArg State.answer
      (clock_write (s := { s with inputs := s.inputs.tail }) (d := s.dbus) (l := s.inputs.headD Lines.idle) ht hrow hv hbus hc)⟩
  | none =>
    have hc : c.read = true := by rw [hread, hv]; rfl
    by_cases hwait : (s.inputs.headD Lines.idle).rdy = true
    · left
      cases hi : s.inputs with
      | nil =>
        rw [hi] at hwait
        exact absurd hwait Bool.false_ne_true
      | cons l ls =>
        rw [hi] at hwait
        obtain ⟨htick, hfinish⟩ := lineTick_wait ht hrow hbus hv hc hi hwait
        refine ⟨?_, ?_, hfinish⟩ <;> rw [htick]
        · exact emitRead_t _ _ _
        · exact congrArg List.length (emitRead_trace _ _ _)
    · right
      have hsettle : State.settleRead c.addr c.sync s.inputs s = s.arrive.latchDl := by
        unfold State.arrive
        cases hi : s.inputs with
        | nil => rfl
        | cons l ls =>
          rw [hi] at hwait
          rw [State.settleRead, if_neg (by exact hwait)]
          rfl
      have hquiet := (rows_local s r (List.mem_of_getElem? hrow)).act.quiet
      rw [finishCycle_read hrow hbus hv, hsettle]
      exact ⟨(hquiet _).t, (hquiet _).trace, congrArg State.answer
        (clock_read (s := { s with inputs := s.inputs.tail }) (d := s.dbus) (l := s.inputs.headD Lines.idle) ht hrow hv
          (Bool.eq_false_iff.mpr hwait))⟩

/-- Going on from a completed cycle: the table is over and the next sequence is opened, or the next row is emitted and completing the
table from there gives the same. -/
theorem advance_answer_cases {s : State} (ht : s.t ≠ 0) :
    (runRows (s.rows.drop s.t) s.rest = s.rest ∧ s.advance.answer = s.rest.openSequence) ∨
    (s.advance.answer.t ≠ 0 ∧ s.advance.answer.trace.length = s.trace.length + 1 ∧
      s.advance.answer.resume = runRows (s.rows.drop s.t) s.rest) := by
  obtain ⟨rows, hrows, hdrop⟩ := drop_rows s ht
  have hlocal : ∀ r ∈ s.rows.drop s.t, LocalRow r := fun r hr => rows_local s r (List.mem_of_mem_drop hr)
  obtain ⟨hnone, hstart⟩ | ⟨r, rs, hleft, hhappens, hemit⟩ := advance_cases s ht
  · refine .inl ⟨runRows_none fun r hr => ((hlocal r hr).happens_rest s).trans (hnone r hr), ?_⟩
    rw [hstart, openSequence_eq_answer, startSequence_rest]
  · right
    obtain ⟨rows', hrows', hr, hrow⟩ := row_at_next ht hleft
    have hlr := hrows'.isLocal r hr
    obtain ⟨hindex, htrace⟩ := emitRow_answer_frame hlr.act.quiet { s with t := s.t + 1 }
    have hleft' : ((r.run { s with t := s.t + 1 }).rows).drop (s.t + 1) = rs := by
      obtain ⟨n, hn⟩ := Nat.exists_eq_succ_of_ne_zero ht
      rw [hn] at hdrop hleft ⊢
      exact hrows.rows_left (s := { s with t := n.succ + 1 }) hdrop (hdrop ▸ hleft)
    have hresume := resume_emitRow hlr hrow fun hv => hrows'.act_rows hr hv _
    rw [hemit]
    refine ⟨by rw [hindex]; exact Nat.succ_ne_zero _, htrace, ?_⟩
    rw [hresume, hleft', hleft, runRows_cons, hlr.happens_rest, if_pos hhappens]
    rfl

/-- A tick from inside a sequence stays inside it and leaves alone what completing it gives, or it was the last and opens the next
sequence from there. -/
theorem lineTick_inside {s : State} (h : Inside s) :
    (Inside s.lineTick ∧ s.lineTick.trace.length = s.trace.length + 1 ∧ s.lineTick.resume = s.resume) ∨
    (s.resume.trace = s.trace ∧ s.lineTick = s.resume.openSequence) := by
  have hout := lineTick_outstanding h.outstanding
  obtain ⟨hindex, htrace, hfinish⟩ | ⟨hindex, htrace, htick⟩ := lineTick_cases h
  · exact .inl ⟨⟨by rw [hindex]; exact h.index, hout⟩, htrace, by rw [resume_eq, resume_eq, hfinish, hindex]⟩
  · have hresumed : s.resume = runRows (s.finishCycle.rows.drop s.finishCycle.t) s.finishCycle.rest := by rw [resume_eq, hindex]
    rw [hresumed]
    obtain ⟨hrun, hopen⟩ | ⟨hne, hlength, hresume⟩ := advance_answer_cases (s := s.finishCycle) (by rw [hindex]; exact h.index)
    · rw [hrun]
      exact .inr ⟨htrace, htick.trans hopen⟩
    · rw [← htick] at hne hlength hresume
      exact .inl ⟨⟨hne, hout⟩, by rw [hlength, htrace], hresume⟩

/-! ### The ticks of a sequence (R6, R96, R97) -/

theorem finishCycle_trace_le {s : State} (h : Inside s) : s.trace.length ≤ s.finishCycle.trace.length := by
  obtain ⟨r, c, hrow, hbus, -⟩ := h.outstanding h.index
  cases hv : r.value with
  | none =>
    rw [finishCycle_read hrow hbus hv, ((rows_local s r (List.mem_of_getElem? hrow)).act.quiet _).trace]
    exact settleRead_length _ _ _ _
  | some v => rw [finishCycle_write hrow hbus hv]; exact Nat.le_refl _

theorem resume_trace_le {s : State} (h : Inside s) : s.trace.length ≤ s.resume.trace.length := by
  have hquiet : QuietRows (s.finishCycle.rows.drop s.t) := fun r hr =>
    (rows_local s.finishCycle r (List.mem_of_mem_drop hr)).act.quiet
  obtain ⟨n, hn, -⟩ := sampledOnce_busRel.cycleRel.rows hquiet s.finishCycle.rest
  refine Nat.le_trans (finishCycle_trace_le h) ?_
  rw [resume_eq, hn]
  exact Nat.le_add_right _ n

/-- As many ticks as a sequence has cycles left stay inside it, and one more opens the next sequence from its end. -/
theorem lineTicks_inside (n : Nat) {s : State} (h : Inside s) (hn : s.resume.trace.length = s.trace.length + n) :
    State.lineTicks (n + 1) s = s.resume.openSequence ∧
      ∀ k, k ≤ n → Inside (State.lineTicks k s) ∧ (State.lineTicks k s).resume = s.resume := by
  induction n generalizing s with
  | zero =>
    obtain ⟨hinside, hlength, hresume⟩ | ⟨-, hopen⟩ := lineTick_inside h
    · have hle := resume_trace_le hinside
      rw [hresume] at hle
      omega
    · refine ⟨hopen, fun k hk => ?_⟩
      rw [Nat.le_zero.mp hk]
      exact ⟨h, rfl⟩
  | succ n ih =>
    obtain ⟨hinside, hlength, hresume⟩ | ⟨htrace, -⟩ := lineTick_inside h
    · obtain ⟨hopen, hstay⟩ := ih hinside (by rw [hresume, hlength]; omega)
      rw [hresume] at hopen hstay
      refine ⟨hopen, fun k hk => ?_⟩
      cases k with
      | zero => exact ⟨h, rfl⟩
      | succ k => exact hstay k (Nat.le_of_succ_le_succ hk)
    · rw [htrace] at hn
      omega

/-! ### A whole step (R404, R405) -/

theorem openSequence_inside (s : State) : Inside s.openSequence ∧ s.openSequence.trace.length = s.trace.length + 1 := by
  obtain ⟨r, rs, -, hr, hstart⟩ := startSequence_opening s
  obtain ⟨-, -, -, -, -, -, -, -, btrace, -⟩ := boundary_frame s
  obtain ⟨hindex, htrace⟩ := emitRow_answer_frame hr.quiet (s.boundary.2.within s.boundary.1 1)
  rw [openSequence_eq_answer]
  refine ⟨⟨?_, answer_outstanding (startSequence_outstanding s)⟩, ?_⟩ <;> rw [hstart]
  · rw [hindex]
    exact Nat.one_ne_zero
  · rw [htrace]
    exact congrArg (fun l => List.length l + 1) btrace

theorem within_rest {u : State} (ht : u.t = 0) (q : Seq) (n : Nat) : (u.within q n).rest = { u with seq := restingSeq q } :=
  State.eq_of_fields rfl rfl rfl ht.symm rfl rfl rfl rfl rfl rfl rfl rfl rfl

/-- The table of a running sequence after its opening row, read where that row has been performed. -/
theorem runWhole_eq_rows (q : Seq) {u : State} (ht : u.t = 0) {r : Row} {rs : List Row} (hrows : (u.within q 1).rows = r :: rs)
    (hr : LocalRow r) : u.runWhole q = runRows ((r.run (u.within q 1)).rows.drop 1) (r.run (u.within q 1).rest) := by
  have hrest := within_rest ht q 1
  by_cases hq : q = .instr
  · subst hq
    obtain ⟨rfl, -⟩ := List.cons.inj hrows
    have htable : (fetchRow.run (u.within .instr 1)).rows = fetchRow :: instrRows (fetchRow.run (u.within .instr 1)).latch.ir := by
      have hseq : (fetchRow.run (u.within .instr 1)).seq = .instr := by
        show (State.readCycle _ _ _).seq = _
        rw [readCycle_seq]
        rfl
      unfold State.rows
      rw [hseq]
    have hir : (fetchRow.run (u.within .instr 1)).latch.ir = (fetchRow.run (u.within .instr 1).rest).latch.ir := by
      rw [hr.run_rest]
      rfl
    rw [htable, hir, hrest]
    rfl
  · have hsequence : (u.within q 1).rows = sequenceRows q u.cfg := by
      unfold State.rows
      cases q with
      | instr => exact absurd rfl hq
      | _ => rfl
    obtain ⟨halways, hir, hseq⟩ := sequenceRows_steady q u.cfg
    rw [← hsequence, hrows] at halways hir hseq
    have hkept := run_rows hr.act.quiet (hseq r List.mem_cons_self) (hir r List.mem_cons_self) (u.within q 1)
    have hrun : u.runWhole q = runRows (sequenceRows q u.cfg) { u with seq := restingSeq q } := by
      cases q with
      | instr => exact absurd rfl hq
      | _ => rfl
    rw [hrun, ← hsequence, hkept, hrows, hrest, runRows_cons, if_pos (halways r List.mem_cons_self _)]
    rfl

/-- Completing the sequence that a step opens is the step. -/
theorem resume_openSequence {s t : State} (ht : s.t = 0) (hbus : s.lastBus ≠ none) (h : step s = .next t) :
    s.openSequence.resume = t := by
  obtain ⟨r, rs, hrows, hr, hstart⟩ := startSequence_opening s
  have hlocal : LocalRow r := rows_local _ r (by rw [hrows]; exact List.mem_cons_self)
  obtain ⟨-, -, -, bt, -⟩ := boundary_frame s
  rw [step_eq_runWhole ht, firstTick_eq hbus, Host.Outcome.next.injEq] at h
  rw [← h, openSequence_eq_answer, hstart, resume_emitRow hlocal (congrArg (·[0]?) hrows) fun hv => absurd hr.read hv]
  exact (runWhole_eq_rows _ (bt.trans ht) hrows hlocal).symm

/-- The cycles of a step, counted from its opening row. -/
theorem step_cycles {s t : State} (ht : s.t = 0) (hbus : s.lastBus ≠ none) (h : step s = .next t) :
    ∃ n, t.trace.length - s.trace.length = n + 1 ∧
      s.openSequence.resume.trace.length = s.openSequence.trace.length + n := by
  obtain ⟨hinside, hlength⟩ := openSequence_inside s
  have hle := resume_trace_le hinside
  rw [resume_openSequence ht hbus h, hlength] at *
  exact ⟨t.trace.length - (s.trace.length + 1), by omega, by omega⟩

/-- Settles O17: the ticks of the step's sequence, from the cycle that opens it to the cycle that opens the next. -/
theorem ticksRefineStep : Obligations.TicksRefineStep := by
  intro s t ht _ hbus h
  obtain ⟨n, hcount, hn⟩ := step_cycles ht hbus h
  obtain ⟨hopen, -⟩ := lineTicks_inside n (openSequence_inside s).1 hn
  rw [hcount, systemTicks_eq_lineTicks, hopen, resume_openSequence ht hbus h]

/-- Settles O18: a tick inside the sequence leaves alone what completing it gives, and a step from there completes it. -/
theorem stepResumesSequence : Obligations.StepResumesSequence := by
  intro s t ht _ hbus h k hk
  obtain ⟨n, hcount, hn⟩ := step_cycles ht hbus h
  obtain ⟨-, hstay⟩ := lineTicks_inside n (openSequence_inside s).1 hn
  obtain ⟨hinside, hresume⟩ := hstay k (by omega)
  rw [systemTicks_eq_lineTicks, ← resume_openSequence ht hbus h, ← hresume]
  exact if_neg hinside.index

end Sys2Proof.Claims
end

section
/-!
Claims about the memory system and the arithmetic: the hooks, the backing array, and what the decimal formulas mean.
-/

namespace Sys2Proof.Claims
open Sys2Proof.Machine

/-! ### What a hook answers and when a range is registered (R105 to R107) -/

theorem accessRead_hooked_dbus {s : State} {a : Word} {h : HookRange} (hh : s.hookAt a = some h) :
    (s.accessRead a).dbus = Config.hookRead (s.accessRead a).hookCalls s.trace.length := by
  rw [State.accessRead, resolve_hooked hh]

/-- Settles O31: the answer depends on the calls and the number of bus cycles, and the call added on the hook, the address and D. -/
theorem hookAnswers : Obligations.HookAnswers := by
  refine ⟨fun s a h hh => accessRead_hooked_dbus hh, fun s t a h hs ht hcalls hlen hd => ?_⟩
  rw [accessRead_hooked_dbus hs, accessRead_hooked_dbus ht, accessRead_hooked_hookCalls hs, accessRead_hooked_hookCalls ht,
    hcalls, hlen, hd]

theorem overlaps_iff {h k : HookRange} : HookRange.overlaps h k = true ↔ h.low ≤ k.high ∧ k.low ≤ h.high := by
  simp [HookRange.overlaps]

theorem overlaps_comm (h k : HookRange) : HookRange.overlaps h k = HookRange.overlaps k h := Bool.and_comm ..

/-- A range that is not empty and overlaps none of the legal ranges can be put after them. -/
theorem hooksWellFormed_append {hs : List HookRange} {h : HookRange} (hwf : hooksWellFormed hs = true) (hh : h.low ≤ h.high)
    (hne : ∀ k ∈ hs, HookRange.overlaps h k = false) : hooksWellFormed (hs ++ [h]) = true := by
  induction hs with
  | nil => simpa [hooksWellFormed] using hh
  | cons k hs ih =>
    simp only [hooksWellFormed, Bool.and_eq_true] at hwf
    obtain ⟨⟨hk, hdisjoint⟩, hrest⟩ := hwf
    have hkh : HookRange.overlaps k h = false := overlaps_comm k h ▸ hne k List.mem_cons_self
    simp [hooksWellFormed, hk, hdisjoint, hkh, ih hrest fun m hm => hne m (List.mem_cons_of_mem _ hm)]

/-- Settles O32, by the three ranges the registration tells apart. -/
theorem registerHook : Obligations.RegisterHook := by
  refine fun s low high handler hwf => ⟨fun ⟨hle, hne⟩ => ?_, fun ⟨hle, k, hk, hover⟩ => ?_, fun hlt => ?_⟩
  · have hfree : ∀ k ∈ s.hooks, HookRange.overlaps ⟨low, high, handler⟩ k = false :=
      fun k hk => Bool.eq_false_iff.mpr fun ho => hne k hk (overlaps_iff.mp ho)
    have hany : (s.hooks.any fun k => HookRange.overlaps ⟨low, high, handler⟩ k) = false := by simpa using hfree
    exact ⟨_, by rw [State.registerHook, if_pos hle, hany]; rfl, rfl, hooksWellFormed_append hwf hle hfree⟩
  · have hany : (s.hooks.any fun k => HookRange.overlaps ⟨low, high, handler⟩ k) = true :=
      List.any_eq_true.mpr ⟨k, hk, overlaps_iff.mpr hover⟩
    rw [State.registerHook, if_pos hle, hany]; rfl
  · rw [State.registerHook, if_neg (BitVec.not_le.mpr hlt)]

/-! ### The backing array (R100, R108) -/

/-- A canonical array lists no index above 0xFFFF. -/
theorem get_of_size_le {m : Memory} {low i : Nat} (h : Memory.wfFrom low m = true) (hi : 65536 ≤ i) : Memory.get m i = 0 := by
  induction m generalizing low with
  | nil => rfl
  | cons cell m ih =>
    obtain ⟨j, w⟩ := cell
    simp only [Memory.wfFrom, Bool.and_eq_true, decide_eq_true_eq] at h
    obtain ⟨⟨⟨-, hj⟩, -⟩, hm⟩ := h
    have hij : i ≠ j := by omega
    rw [Memory.get, if_neg hij, ih hm]

/-- Canonical arrays that hold the same bytes at every address hold the same at every index. -/
theorem get_eq_of_words {m n : Memory} (hm : Memory.wf m = true) (hn : Memory.wf n = true)
    (h : ∀ w : Word, Memory.get m w.toNat = Memory.get n w.toNat) (i : Nat) : Memory.get m i = Memory.get n i := by
  rcases Nat.lt_or_ge i 65536 with hi | hi
  · simpa [BitVec.toNat_ofNat, Nat.mod_eq_of_lt hi] using h (BitVec.ofNat 16 i)
  · rw [get_of_size_le hm hi, get_of_size_le hn hi]

/-- Settles O34, by the rules of `Memory.set` and the canonical form. -/
theorem backingArray : Obligations.BackingArray := by
  refine ⟨fun m w w' v hm => ⟨Memory.set_wf hm w v, ?_⟩, fun m n hm hn h => ?_, fun w => rfl⟩
  · simp only [Memory.get_set hm, BitVec.toNat_inj]
  · exact Memory.ext_of_wf hm hn (get_eq_of_words hm hn h)

/-! ### Decimal results on valid BCD (R251, R253) -/

theorem bcd_toNat {n : Nat} (h : n < 100) : (bcd n).toNat = n / 10 * 16 + n % 10 := by
  rw [bcd, BitVec.toNat_ofNat, Nat.mod_eq_of_lt (by omega)]

/-- The BCD byte of a number given by its tens and its units. -/
theorem bcd_digits_toNat {t u : Nat} (ht : t < 10) (hu : u < 10) : (bcd (t * 10 + u)).toNat = t * 16 + u := by
  rw [bcd_toNat (by omega)]; omega

theorem bcd_digits_lowDigit {t u : Nat} (ht : t < 10) (hu : u < 10) : (bcd (t * 10 + u)).toNat % 16 = u := by
  rw [bcd_digits_toNat ht hu]; omega

theorem bcd_digits_highDigit {t u : Nat} (ht : t < 10) (hu : u < 10) : (bcd (t * 10 + u)).toNat / 16 = t := by
  rw [bcd_digits_toNat ht hu]; omega

theorem exists_digits {n : Nat} (h : n < 100) : ∃ t u, t < 10 ∧ u < 10 ∧ n = t * 10 + u :=
  ⟨n / 10, n % 10, by omega, by omega, by omega⟩

/-- The correction of a digit sum: 6 is added from 10 on, which turns a carried ten into a carried 16. -/
theorem sumDigit_corrected {n : Nat} (h : n < 20) : (if 10 ≤ n then (n + 6) % 16 + 16 else n) = n / 10 * 16 + n % 10 := by
  split <;> omega

/-- The correction of the high digit of a sum, whose carry leaves the byte. -/
theorem sumByte_corrected {t u : Nat} (ht : t < 20) (hu : u < 10) :
    (if 160 ≤ t * 16 + u then t * 16 + u + 96 else t * 16 + u) % 2 ^ 8 = t % 10 * 16 + u := by
  split <;> omega

/-- The correction of a digit difference, which turns a borrowed ten into a borrowed 16. -/
theorem differenceDigit_corrected {n : Int} (h : -10 ≤ n) (h' : n < 10) :
    (if n < 0 then (n - 6) % 16 - 16 else n) = n / 10 * 16 + n % 10 := by
  split <;> omega

/-- The correction of the high digit of a difference, whose borrow leaves the byte. -/
theorem differenceByte_corrected {t u : Int} (ht : -10 ≤ t) (ht' : t < 10) (hu : 0 ≤ u) (hu' : u < 10) :
    (if t * 16 + u < 0 then t * 16 + u - 96 else t * 16 + u) % (2 ^ 8 : Nat) = t % 10 * 16 + u := by
  split <;> omega

/-- The sum: the units carry a ten when they reach 10, the tens a hundred when they do. -/
theorem decimalSum_r {x y : Nat} (c : Bool) (hx : x < 100) (hy : y < 100) :
    (decimalSumOf (bcd x) (bcd y) c).r = bcd ((x + y + c.toNat) % 100) := by
  have hc := c.toNat_le
  obtain ⟨t, u, ht, hu, rfl⟩ := exists_digits hx
  obtain ⟨t', u', ht', hu', rfl⟩ := exists_digits hy
  have hdigits : (t * 10 + u + (t' * 10 + u') + c.toNat) % 100 =
      (t + t' + (u + u' + c.toNat) / 10) % 10 * 10 + (u + u' + c.toNat) % 10 := by omega
  have hbyte : t * 16 + t' * 16 + ((u + u' + c.toNat) / 10 * 16 + (u + u' + c.toNat) % 10) =
      (t + t' + (u + u' + c.toNat) / 10) * 16 + (u + u' + c.toNat) % 10 := by omega
  refine BitVec.eq_of_toNat_eq ?_
  rw [hdigits, bcd_digits_toNat (by omega) (by omega)]
  simp only [decimalSumOf, bcd_digits_lowDigit, bcd_digits_highDigit, ht, hu, ht', hu', BitVec.toNat_ofNat]
  rw [sumDigit_corrected (by omega), hbyte, sumByte_corrected (by omega) (by omega)]

theorem decimalSum_c {x y : Nat} (c : Bool) (hx : x < 100) (hy : y < 100) :
    (decimalSumOf (bcd x) (bcd y) c).c = true ↔ 100 ≤ x + y + c.toNat := by
  have hc := c.toNat_le
  obtain ⟨t, u, ht, hu, rfl⟩ := exists_digits hx
  obtain ⟨t', u', ht', hu', rfl⟩ := exists_digits hy
  simp only [decimalSumOf, bcd_digits_lowDigit, bcd_digits_highDigit, ht, hu, ht', hu', decide_eq_true_eq]
  split <;> split <;> omega

/-- The difference: the units borrow a ten when they fall below 0, the tens a hundred when they do. -/
theorem decimalDifference_r {x y : Nat} (c : Bool) (hx : x < 100) (hy : y < 100) :
    (decimalDifferenceOf (bcd x) (bcd y) c).r = bcd ((x + 100 + c.toNat - 1 - y) % 100) := by
  have hc := c.toNat_le
  obtain ⟨t, u, ht, hu, rfl⟩ := exists_digits hx
  obtain ⟨t', u', ht', hu', rfl⟩ := exists_digits hy
  obtain ⟨e, he⟩ : ∃ e : Int, e = (u : Int) - u' + c.toNat - 1 := ⟨_, rfl⟩
  obtain ⟨t'', u'', ht'', hu'', hn⟩ :=
    exists_digits (Nat.mod_lt (t * 10 + u + 100 + c.toNat - 1 - (t' * 10 + u')) (y := 100) (by decide))
  have htens : (t'' : Int) = ((t : Int) - t' + e / 10) % 10 := by omega
  have hunits : (u'' : Int) = e % 10 := by omega
  have hbyte : ((t * 16 : Nat) : Int) - (t' * 16 : Nat) + (e / 10 * 16 + e % 10) = ((t : Int) - t' + e / 10) * 16 + e % 10 := by
    omega
  refine BitVec.eq_of_toNat_eq ?_
  rw [hn, bcd_digits_toNat ht'' hu'']
  simp only [decimalDifferenceOf, bcd_digits_lowDigit, bcd_digits_highDigit, ht, hu, ht', hu', BitVec.toNat_ofInt, ← he]
  rw [differenceDigit_corrected (by omega) (by omega), hbyte,
    differenceByte_corrected (by omega) (by omega) (by omega) (by omega), ← htens, ← hunits]
  omega

theorem decimalDifference_c {x y : Nat} (c : Bool) (hx : x < 100) (hy : y < 100) :
    (decimalDifferenceOf (bcd x) (bcd y) c).c = true ↔ y + 1 ≤ x + c.toNat := by
  have hc := c.toNat_le
  simp only [decimalDifferenceOf, differenceOf, bcd_toNat hx, bcd_toNat hy, decide_eq_true_eq]
  omega

/-- Settles O38: the masks of the formulas are the digits of the numbers, the corrections the decimal carry and borrow. -/
theorem decimalMeaning : Obligations.DecimalMeaning := by
  intro x y c hx hy
  rw [decimalAdd_eq_decimalSumOf, decimalSub_eq_decimalDifferenceOf]
  exact ⟨decimalSum_r c hx hy, decimalSum_c c hx hy, decimalDifference_r c hx hy, decimalDifference_c c hx hy⟩

end Sys2Proof.Claims
end

section
/-!
The byte D between two ticks (R92, R96): the next bus cycle and everything the core keeps depend on registers, latches, the controller
and the parameters, never on D itself, which only a read cycle's completion latches.
-/

namespace Sys2Proof.Machine

/-- Two states alike in all that decides the next bus cycle. -/
structure SameCore (s u : State) : Prop where
  regs : u.regs = s.regs
  latch : u.latch = s.latch
  seq : u.seq = s.seq
  t : u.t = s.t
  ctl : u.ctl = s.ctl
  cfg : u.cfg = s.cfg

/-- Such states after a bus cycle that looks the same on the pins. -/
structure SameCycle (s u : State) : Prop extends SameCore s u where
  pins : u.lastBus.map BusCycle.pins = s.lastBus.map BusCycle.pins

theorem SameCore.like {s u : State} (h : SameCore s u) : s.like u = u := State.like_eq h.regs h.latch h.cfg

theorem SameCore.rows {s u : State} (h : SameCore s u) : u.rows = s.rows :=
  rows_congr h.seq (congrArg Latches.ir h.latch) h.cfg

theorem SameCore.atCycle {s u : State} (h : SameCore s u) (q : Seq) (n : Nat) : SameCore (s.within q n) (u.within q n) :=
  ⟨h.regs, h.latch, rfl, rfl, h.ctl, h.cfg⟩

theorem LocalAct.sameCore {act : State → State} (h : LocalAct act) {s u : State} (hsu : SameCore s u) :
    SameCore (act s) (act u) where
  regs := by rw [← hsu.like]; exact h.regs s u
  latch := by rw [← hsu.like]; exact h.latch s u
  seq := by rcases h.seq with hq | hq <;> simp only [hq, hsu.seq]
  t := by rw [(h.quiet u).t, (h.quiet s).t, hsu.t]
  ctl := by rcases h.ctl with hc | hc <;> simp only [hc, hsu.ctl]
  cfg := by rw [(h.quiet u).cfg, (h.quiet s).cfg, hsu.cfg]

/-- The byte a read shows is not part of what the core puts on the pins, and a written byte is decided by the core. -/
theorem emitRow_sameCycle {r : Row} (h : LocalRow r) {s u : State} (hsu : SameCore s u) :
    SameCycle (State.emitRow r s) (State.emitRow r u) := by
  have haddr : r.addr u = r.addr s := by rw [← hsu.like]; exact h.addr s u
  unfold State.emitRow
  cases hv : r.value with
  | none =>
    obtain ⟨regs, latch, seq, t, ctl, cfg⟩ := hsu
    exact ⟨⟨regs, latch, seq, t, ctl, cfg⟩, by simp [State.drive, BusCycle.pins, haddr]⟩
  | some v =>
    have hvalue : v u = v s := by rw [← hsu.like]; exact h.value v hv s u
    obtain ⟨regs, latch, seq, t, ctl, cfg⟩ := h.act.sameCore hsu
    exact ⟨⟨regs, latch, seq, t, ctl, cfg⟩, by simp [State.drive, haddr, hvalue]⟩

theorem boundary_sameCore {s u : State} (h : SameCore s u) :
    u.boundary.1 = s.boundary.1 ∧ SameCore s.boundary.2 u.boundary.2 := by
  obtain ⟨regs, latch, seq, t, ctl, cfg⟩ := h
  unfold State.boundary
  rw [seq, ctl, regs]
  repeat' split
  all_goals refine ⟨rfl, ?_, latch, ?_, t, ?_, cfg⟩ <;> simp only [regs, seq, ctl]

theorem startSequence_sameCycle {s u : State} (h : SameCore s u) : SameCycle s.startSequence u.startSequence := by
  obtain ⟨hq, hboundary⟩ := boundary_sameCore h
  have hopened := hboundary.atCycle s.boundary.1 1
  obtain ⟨r, rs, hrows, -, hstart⟩ := startSequence_opening s
  rw [hstart, startSequence_eq_emitFirst, hq, State.emitFirst, hopened.rows, hrows]
  exact emitRow_sameCycle (rows_local _ r (by rw [hrows]; exact List.mem_cons_self)) hopened

theorem dropWhile_happens_sameCore {rs : List Row} (hrs : LocalRows rs) {s u : State} (h : SameCore s u) :
    rs.dropWhile (fun r => !r.happens u) = rs.dropWhile (fun r => !r.happens s) := by
  induction rs with
  | nil => rfl
  | cons r rs ih =>
    have hr : r.happens u = r.happens s := by rw [← h.like]; exact (hrs r List.mem_cons_self).happens s u
    rw [List.dropWhile_cons, List.dropWhile_cons, hr, ih fun r' hr' => hrs r' (List.mem_cons_of_mem r hr')]

theorem advance_sameCycle {s u : State} (h : SameCore s u) : SameCycle s.advance u.advance := by
  have hdrop : LocalRows (s.rows.drop s.t) := fun r hr => rows_local s r (List.mem_of_mem_drop hr)
  unfold State.advance
  rw [h.rows, h.t, dropWhile_happens_sameCore hdrop h]
  cases hnext : (s.rows.drop s.t).dropWhile (fun r => !r.happens s) with
  | nil => exact startSequence_sameCycle h
  | cons r rs =>
    have hmem : r ∈ s.rows.drop s.t := (List.dropWhile_sublist _).subset (hnext ▸ List.mem_cons_self)
    exact emitRow_sameCycle (hdrop r hmem) ⟨h.regs, h.latch, h.seq, rfl, h.ctl, h.cfg⟩

/-- No byte is latched after a write cycle (R92). -/
theorem completeRow_of_write {s : State} {r : Row} (hrow : s.rows[s.t - 1]? = some r) (hw : r.value ≠ none) : s.completeRow = s := by
  unfold State.completeRow
  rw [hrow]
  cases hv : r.value with
  | none => exact absurd hv hw
  | some v => dsimp only; rw [hv]

end Sys2Proof.Machine

namespace Sys2Proof.Claims
open Sys2Proof.Machine

/-- Settles O25: after a write the tick only advances, from states that differ in D alone. -/
theorem dataIgnoredAfterWrite : Obligations.DataIgnoredAfterWrite := by
  intro s d d' l c ht hout hlast hwrite
  obtain ⟨r, c', hrow, hlast', hread⟩ := hout ht
  have hw : r.value ≠ none := fun hnone => by
    rw [hlast, Option.some.injEq] at hlast'
    rw [← hlast', hwrite, hnone] at hread
    exact Bool.false_ne_true hread
  have hclock : ∀ d, s.clock d l = ({ s.sample l with dbus := d } : State).advance := fun d => by
    have hkeep := completeRow_of_write (s := { s.sample l with dbus := d }) hrow hw
    rw [clock_after_write d l ht hlast hwrite, hkeep]
  rw [hclock d, hclock d']
  obtain ⟨⟨hregs, hlatch, hseq, htt, hctl, -⟩, hpins⟩ :=
    advance_sameCycle (s := { s.sample l with dbus := d' }) (u := { s.sample l with dbus := d }) ⟨rfl, rfl, rfl, rfl, rfl, rfl⟩
  exact ⟨hregs, hlatch, hseq, htt, hctl, hpins⟩

end Sys2Proof.Claims
end

section
/-!
The cycle-count law (R194, R146, R306): a step takes a cycle for every byte it fetches and one for every row of its plan that happens.
Rows are conditional only in the read class of the modes that can cross a page and in the branches.
-/

namespace Sys2Proof.Machine

/-! ### Counting bus cycles -/

theorem AddsCycles.length {s t : State} {l : List Pins} (h : AddsCycles s t l) : t.trace.length = s.trace.length + l.length := by
  have hlength := congrArg List.length h
  rw [List.length_map, List.length_append, List.length_reverse, List.length_map] at hlength
  rw [hlength, Nat.add_comm]

theorem AlwaysRows.rowsPins_length {rs : List Row} (h : AlwaysRows rs) (s : State) : (rowsPins rs s).length = rs.length := by
  induction rs generalizing s with
  | nil => rfl
  | cons r rs ih =>
    rw [rowsPins, if_pos (h r List.mem_cons_self s), List.length_cons, List.length_cons,
      ih fun r' hr' => h r' (List.mem_cons_of_mem r hr')]

end Sys2Proof.Machine

namespace Sys2Proof.Claims

open Sys2Proof.Machine

theorem latchOperand_frame (n : Nat) (b1 b2 : Byte) (s : State) :
    (latchOperand n b1 b2 s).trace = s.trace ∧ (latchOperand n b1 b2 s).inputs = s.inputs := by
  unfold latchOperand
  split <;> exact ⟨rfl, rfl⟩

/-- An instruction whose rows all happen takes as many cycles, its fetches made. -/
theorem exec_trace_of_always {i : Instr} (h : AlwaysRows (planFor i.descriptor).rows) {u : State} (hn : u.NoWaits) :
    ∃ t, exec i u = .next t ∧ t.trace.length = u.trace.length + (planFor i.descriptor).rows.length := by
  obtain ⟨hstart, hrows⟩ := planFor_local i.descriptor
  refine ⟨_, exec_eq_planFor i u, ?_⟩
  obtain ⟨htrace, hinputs⟩ :=
    latchOperand_frame (operandFetches i.descriptor) ((encode i).getD 1 0) ((encode i).getD 2 0) u
  generalize latchOperand (operandFetches i.descriptor) ((encode i).getD 1 0) ((encode i).getD 2 0) u = v at htrace hinputs
  have hq := hstart.quiet v
  have hnv : ((planFor i.descriptor).start v).NoWaits := by
    unfold State.NoWaits
    rw [hq.inputs, hinputs]
    exact hn
  rw [Plan.run, (runRows_unwaited (.of_local hrows) hnv).1.length, h.rowsPins_length, hq.trace, htrace]

/-- The fetches take a cycle for the opcode and one for each operand byte fetched (R172). -/
theorem Fetches.trace_length {i : Instr} {s u : State} (h : Fetches i s u) (hn : s.NoWaits) :
    u.trace.length = s.trace.length + 1 + operandFetches i.descriptor := by
  have hfetched : fetchedBytes i - 1 = operandFetches i.descriptor := by
    unfold fetchedBytes operandFetches Descriptor.length
    split
    · rfl
    · exact Nat.add_sub_cancel_left ..
  rw [(h.bus hn).2.length, List.length_cons, List.length_map, List.length_range, hfetched, Nat.add_assoc, Nat.add_comm 1]

/-! ### The conditional rows -/

/-- The operations of the read class. -/
def readOps : List Operation :=
  [.ADC, .ALR, .ANC, .AND, .ANE, .ARR, .BIT, .CMP, .CPX, .CPY, .EOR, .LAS, .LAX, .LDA, .LDX, .LDY, .LXA, .NOP, .ORA, .SBC, .SBX, .USBC]

/-- The conditional branches (R307 to R314). -/
def branchOps : List Operation := [.BCC, .BCS, .BEQ, .BMI, .BNE, .BPL, .BVC, .BVS]

theorem planFor_of_readOps {d : Descriptor} (h : d.op ∈ readOps) (hm : canCross d.mode = true) :
    ∃ op, planFor d = readPlan d.mode op := by
  have himplied : d.mode ≠ .implied := fun hmode => by rw [hmode] at hm; exact Bool.false_ne_true hm
  unfold planFor nopPlan
  rw [if_neg himplied]
  cases hop : d.op <;> rw [hop] at h
  all_goals first
    | exact ⟨_, rfl⟩
    | exact absurd h (by decide)

theorem planFor_of_branchOps {d : Descriptor} (h : d.op ∈ branchOps) :
    ∃ c, planFor d = branchPlan c ∧ ∀ p, c p = true ↔ branchTaken d.op p := by
  unfold planFor
  cases hop : d.op <;> rw [hop] at h
  case BCC => exact ⟨condBcc, rfl, fun p => iff_of_eq (Bool.not_eq_true' p.c)⟩
  case BCS => exact ⟨condBcs, rfl, fun _ => Iff.rfl⟩
  case BEQ => exact ⟨condBeq, rfl, fun _ => Iff.rfl⟩
  case BMI => exact ⟨condBmi, rfl, fun _ => Iff.rfl⟩
  case BNE => exact ⟨condBne, rfl, fun p => iff_of_eq (Bool.not_eq_true' p.z)⟩
  case BPL => exact ⟨condBpl, rfl, fun p => iff_of_eq (Bool.not_eq_true' p.n)⟩
  case BVC => exact ⟨condBvc, rfl, fun p => iff_of_eq (Bool.not_eq_true' p.v)⟩
  case BVS => exact ⟨condBvs, rfl, fun _ => Iff.rfl⟩
  all_goals exact absurd h (by decide)

theorem readPlan_always {m : Mode} (h : canCross m = false) (op : ReadOp) : AlwaysRows (readPlan m op).rows := by
  by_cases hm : m = .immediate
  · rw [hm]
    exact nofun
  · rw [readPlan_eq hm]
    refine (addressRows_always m).append ?_
    simp [AlwaysRows, readRows, h]

/-- Outside the branches and the reads that can cross a page every row of a plan happens. -/
theorem planFor_always {d : Descriptor} (hbranch : d.op ∉ branchOps) (hread : d.op ∈ readOps → canCross d.mode = false) :
    AlwaysRows (planFor d).rows := by
  unfold planFor nopPlan shiftPlan jmpPlan
  cases hop : d.op <;> rw [hop] at hbranch hread
  all_goals
    dsimp only
    repeat' split
  all_goals first
    | exact absurd (by decide) hbranch
    | exact readPlan_always (hread (by decide)) _
    | exact rmwPlan_always _ _
    | exact storeRows_always _ (by simp [AlwaysRows])
    | simp [AlwaysRows, internalPlan, accumulatorPlan, phaPlan, phpPlan, pushPlan, plaPlan, plpPlan, pullPlan, jumpPlan,
        jumpIndirectPlan, jsrPlan, rtsPlan, rtiPlan, returnRows, brkPlan, entryRows, vectorRows, jamPlan]

/-! ### The base cycles of the table (R143, R146) -/

theorem cycles_of_penalty_table : ∀ o : Byte, (descriptor o).penalty = true →
    (descriptor o).op ∈ readOps ∧ canCross (descriptor o).mode = true ∧
      (descriptor o).cycles = 1 + operandFetches (descriptor o) + ((addressRows (descriptor o).mode).length + 1) := by decide

theorem cycles_of_no_penalty_table : ∀ o : Byte, (descriptor o).penalty = false → (descriptor o).access ≠ .branch →
    (descriptor o).op ∉ branchOps ∧ ((descriptor o).op ∈ readOps → canCross (descriptor o).mode = false) ∧
      (descriptor o).cycles = 1 + operandFetches (descriptor o) + (planFor (descriptor o)).rows.length := by decide

theorem cycles_of_branch_table : ∀ o : Byte, (descriptor o).access = .branch →
    (descriptor o).op ∈ branchOps ∧ (descriptor o).mode = .relative ∧ (descriptor o).cycles = 2 := by decide

/-! ### The law -/

/-- The operand bytes in the latches are the operand word's bytes, by each mode's number of them. -/
theorem latchOperand_eq_loadOperand (m : Mode) (w : Word) (u : State) :
    latchOperand m.operandBytes (lo w) (hi w) u = loadOperand m w u := by
  cases m <;> rfl

theorem exec_eq_loadOperand {i : Instr} (h : i.descriptor.op ≠ .JSR) (u : State) :
    exec i u = .next ((planFor i.descriptor).run (loadOperand i.descriptor.mode (operandOf i) u)) := by
  have hlo : lo (operandOf i) = (encode i).getD 1 0 := lo_pair _ _
  have hhi : hi (operandOf i) = (encode i).getD 2 0 := hi_pair _ _
  have hfetches : operandFetches i.descriptor = i.descriptor.mode.operandBytes := if_neg h
  rw [exec_eq_planFor, hfetches, ← hlo, ← hhi, latchOperand_eq_loadOperand]

theorem addressCycles_length (m : Mode) (w : Word) (s : State) : (addressCycles m w s).length = (addressRows m).length := by
  cases m <;> rfl

theorem readCycles_length (m : Mode) (w : Word) (s : State) :
    (readCycles m w s).length = (addressRows m).length + 1 + if pageCrossed m w s = true then 1 else 0 := by
  unfold readCycles
  rw [List.length_append, List.length_append, addressCycles_length, apply_ite List.length, List.length_singleton,
    List.length_singleton, List.length_nil, Nat.add_right_comm]

/-- The fetches change none of what forms the address: the index registers and the memory. -/
theorem Fetches.address {i : Instr} {s u : State} (h : Fetches i s u) (m : Mode) (w : Word) :
    pageCrossed m w u = pageCrossed m w s ∧ (PointersPlain m w s → PointersPlain m w u) := by
  have hx : u.regs.x = s.regs.x := by rw [h.regs]
  have hy : u.regs.y = s.regs.y := by rw [h.regs]
  have hpeek := h.memory.2
  refine ⟨?_, fun hp a ha => ?_⟩
  · have heffective : effectiveAddress m w u = effectiveAddress m w s := by
      cases m <;> simp only [effectiveAddress, hx, hy, hpeek]
    have hbase : baseAddress m w u = baseAddress m w s := by cases m <;> simp only [baseAddress, hpeek]
    rw [pageCrossed, heffective, hbase, pageCrossed]
  · have hcells : pointerCells m w u = pointerCells m w s := by cases m <;> simp only [pointerCells, hx]
    have hplain := hp a (hcells ▸ ha)
    unfold State.Plain State.hookAt at hplain ⊢
    rw [h.hooks]
    exact hplain

theorem addressing_of_canCross {m : Mode} (h : canCross m = true) : addressing m = true := by
  cases m <;> first | rfl | exact absurd h Bool.false_ne_true

/-- A read that can cross a page: its base cycles and one more on a crossing (R146, R183). -/
theorem exec_trace_of_penalty {i : Instr} (h : i.descriptor.penalty = true) {u : State} (hn : u.NoWaits)
    (hp : PointersPlain i.descriptor.mode (operandOf i) u) :
    ∃ t, exec i u = .next t ∧ t.trace.length = u.trace.length + ((addressRows i.descriptor.mode).length + 1 +
      if pageCrossed i.descriptor.mode (operandOf i) u = true then 1 else 0) := by
  obtain ⟨hop, hcross, -⟩ := cycles_of_penalty_table i.opcode h
  obtain ⟨op, hplan⟩ := planFor_of_readOps hop hcross
  have hjsr : i.descriptor.op ≠ .JSR := fun hjsr => absurd (hjsr ▸ hop : Operation.JSR ∈ readOps) (by decide)
  refine ⟨_, exec_eq_loadOperand hjsr u, ?_⟩
  rw [Instr.descriptor] at hp ⊢
  rw [hplan, ((readPlan_run (addressing_of_canCross hcross) op _ u).bus hn hp).length, readCycles_length]

theorem branchCycles_length (taken : Bool) (b : Byte) (s : State) : (branchCycles taken b s).length =
    if taken = true then 1 + (if hi (s.regs.pc + sext b) = hi s.regs.pc then 0 else 1) else 0 := by
  unfold branchCycles
  dsimp only
  split
  · rw [List.length_cons, apply_ite List.length, List.length_singleton, List.length_nil, Nat.add_comm]
  · rfl

/-- A branch: one more cycle if it is taken, and another if its target is in another page than the next instruction (R306). -/
theorem exec_trace_of_branch {i : Instr} (h : i.descriptor.access = .branch) {u : State} (hn : u.NoWaits) :
    ∃ t, exec i u = .next t ∧
      (¬ branchTaken i.descriptor.op u.regs.p → t.trace.length = u.trace.length) ∧
      (branchTaken i.descriptor.op u.regs.p →
        t.trace.length = u.trace.length + (1 + if hi t.regs.pc = hi u.regs.pc then 0 else 1)) := by
  obtain ⟨hop, hmode, -⟩ := cycles_of_branch_table i.opcode h
  obtain ⟨c, hplan, hc⟩ := planFor_of_branchOps hop
  have hjsr : i.descriptor.op ≠ .JSR := fun hjsr => absurd (hjsr ▸ hop : Operation.JSR ∈ branchOps) (by decide)
  have hrun : (planFor i.descriptor).run (loadOperand i.descriptor.mode (operandOf i) u) =
      (branchPlan c).run (operand8 (lo (operandOf i)) u) := by
    rw [Instr.descriptor, hplan, hmode]
    rfl
  refine ⟨_, exec_eq_loadOperand hjsr u, ?_⟩
  rw [hrun]
  have hdone := branchPlan_run c (lo (operandOf i)) u
  have hlength := (hdone.bus hn).length
  have hregs := hdone.regs
  rw [branchCycles_length] at hlength
  refine ⟨fun hf => ?_, fun ht => ?_⟩
  · rw [if_neg (mt (hc _).mp hf)] at hlength
    exact hlength
  · rw [if_pos ((hc _).mpr ht)] at hlength hregs
    rw [hlength, hregs]

/-- The two fetches of a branch (R306). -/
theorem Fetches.branch {i : Instr} (h : i.descriptor.access = .branch) {s u : State} (hu : Fetches i s u) :
    u.regs.pc = s.regs.pc + 2 ∧ u.regs.p = s.regs.p ∧ operandFetches i.descriptor = 1 := by
  obtain ⟨hop, hmode, -⟩ := cycles_of_branch_table i.opcode h
  have hjsr : i.descriptor.op ≠ .JSR := fun hjsr => absurd (hjsr ▸ hop : Operation.JSR ∈ branchOps) (by decide)
  have hoperand : i.descriptor.mode.operandBytes = 1 := congrArg Mode.operandBytes hmode
  have hfetched : fetchedBytes i = 2 := by rw [fetchedBytes, if_neg hjsr, Descriptor.length, hoperand]
  refine ⟨?_, by rw [hu.regs], by rw [operandFetches, if_neg hjsr, hoperand]⟩
  rw [hu.regs, hfetched]
  rfl

/-- Settles O19: the fetches and then the rows of the plan, by the descriptor's penalty flag and access class. -/
theorem cycleCountLaw : Obligations.CycleCountLaw := by
  intro s i hfetch hheld hn hp
  obtain ⟨u, hstep, hu⟩ := step_of_holdsAtPc hfetch hheld
  obtain ⟨hnu, -⟩ := hu.bus hn
  have hfetches := hu.trace_length hn
  rw [hstep]
  by_cases hbranch : i.descriptor.access = .branch
  · obtain ⟨-, -, hcycles⟩ : _ ∧ _ ∧ i.descriptor.cycles = 2 := cycles_of_branch_table i.opcode hbranch
    obtain ⟨hpc, hstatus, hone⟩ := hu.branch hbranch
    obtain ⟨t, ht, huntaken, htaken⟩ := exec_trace_of_branch hbranch hnu
    rw [hstatus, hfetches, hone] at huntaken htaken
    rw [hpc] at htaken
    refine ⟨t, ht, fun h => absurd hbranch h, fun _ => ⟨fun hf => ?_, fun hb => ?_⟩⟩
    · rw [huntaken hf, hcycles]
    · rw [htaken hb, hcycles, ← Nat.add_assoc]
  · cases hpenalty : i.descriptor.penalty with
    | true =>
      obtain ⟨-, -, hcycles⟩ : _ ∧ _ ∧ i.descriptor.cycles =
          1 + operandFetches i.descriptor + ((addressRows i.descriptor.mode).length + 1) :=
        cycles_of_penalty_table i.opcode hpenalty
      obtain ⟨hcrossed, hpu⟩ := hu.address i.descriptor.mode (operandOf i)
      obtain ⟨t, ht, hlength⟩ := exec_trace_of_penalty hpenalty hnu (hpu hp)
      refine ⟨t, ht, fun _ => ?_, fun h => absurd h hbranch⟩
      rw [hlength, hcrossed, hfetches, hcycles]
      simp only [true_and]
      omega
    | false =>
      obtain ⟨hop, hread, hcycles⟩ : _ ∧ _ ∧ i.descriptor.cycles =
          1 + operandFetches i.descriptor + (planFor i.descriptor).rows.length :=
        cycles_of_no_penalty_table i.opcode hpenalty hbranch
      obtain ⟨t, ht, hlength⟩ := exec_trace_of_always (planFor_always hop hread) hnu
      refine ⟨t, ht, fun _ => ?_, fun h => absurd h hbranch⟩
      rw [hlength, hfetches, if_neg fun h => Bool.false_ne_true h.1, hcycles]
      omega

end Sys2Proof.Claims
end
